-- ==== Sys2Proof/Word.lean ====
section
/-! DEFINITION. The word types of the accel-crypto hash core (`00_scope.md` R12, R13).

A `w`-bit word is an unsigned integer in `[0, 2^w)`, bit 0 the least significant: a `BitVec w`. Addition `+w`
(modulo `2^w`, R13), exclusive-or, and, or, complement and the logical right shift are `BitVec`'s own `+`, `^^^`,
`&&&`, `|||`, `~~~` and `>>>`. The rotates, the byte swap and the byte/word conversions are in
`Machine/Operands.lean`. -/

namespace Sys2Proof

/-- A byte is 8 bits (R12). -/
abbrev Byte := BitVec 8

/-- A word of the RIPEMD256, SHA1 and SHA256 cores, and the command word `CW` (R8, R9). -/
abbrev Word32 := BitVec 32

/-- A word of the SHA384 core, an operand register, a message address (R8, R9). -/
abbrev Word64 := BitVec 64

end Sys2Proof
end

