-- ==== Sys2Proof/Config.lean ====
section
/-! DEFINITION. What is fixed for the block: its parameters (`00_scope.md` R8, R9), the names of its four cores and five
operations (R3, `30_encoding.md` R92), and the model's free values (opaque constants with no body: nothing can be
proved about a value of theirs). The per-core parameter rows of R8 are in `Machine/Ripemd256.lean` to
`Machine/Sha384.lean`. -/

namespace Sys2Proof

/-- The four compression cores (R1, R3). -/
inductive CoreId where
  | ripemd256
  | sha1
  | sha256
  | sha384
  deriving DecidableEq, Repr

/-- The five operations (`30_encoding.md` R92). -/
inductive Operation where
  | init
  | cycle
  | finish
  | digest
  | erase
  deriving DecidableEq, Repr

/-- The size of message memory's address space, `2^64` addresses (R9 `ADDR_W` = 64, `20_memory.md` R60). -/
abbrev Config.addrSpace : Nat := 2 ^ 64

/-- `EPI_SIZE` = 256 bytes, the largest `2*BS` (R9). -/
abbrev Config.epiSize : Nat := 256

/-- `RDATA` is 48 bytes (`10_state.md` R28). -/
abbrev Config.rdataSize : Nat := 48

/-- FREE VALUE (assumption 3): the `n`-th unspecified 32-bit word, for `H[c]` after a `ReadFault` of a CYCLE at a block
`k > 0` (`40_sequencer.md` R140, `60_exceptions.md` R273(d), `93_implementation_defined.md` U8). -/
opaque Config.freeWord32 : Nat → Word32

/-- FREE VALUE (assumption 3): the `n`-th unspecified 64-bit word, as `Config.freeWord32` for the SHA384 core. -/
opaque Config.freeWord64 : Nat → Word64

/-- FREE VALUE (assumption 5): whether the `n`-th racing host write was made before the block read the byte
(`70_reset_and_hazards.md` R311, U6: "a free draw between the old and the new value"). -/
opaque Config.raceTaken : Nat → Bool

end Sys2Proof
end

