-- ==== Sys2Proof/Syntax.lean ====
section
/-! DEFINITION. The command set as syntax: one constructor per row of the opcode map (`30_encoding.md` R103). A command is
the 4-tuple `(CW, A0, A1, A2)` (R90); a constructor carries the operands that R94 gives its operation, and not the
ones the operation ignores. Every value of a 64-bit operand is admitted (R94), so every `Instr` is well formed. -/

namespace Sys2Proof

/-- The 20 commands (R103). `a0`, `a1`, `a2` are the operand registers' values, 64-bit unsigned, used as they stand
(R94): CYCLE takes `blockPointer` and `blockCount`, FINISH `tailPointer`, `tailSize` and `totalProcessedBytes`. -/
inductive Instr where
  | ripemd256Init
  | ripemd256Cycle (a0 a1 : Word64)
  | ripemd256Finish (a0 a1 a2 : Word64)
  | ripemd256Digest
  | ripemd256Erase
  | sha1Init
  | sha1Cycle (a0 a1 : Word64)
  | sha1Finish (a0 a1 a2 : Word64)
  | sha1Digest
  | sha1Erase
  | sha256Init
  | sha256Cycle (a0 a1 : Word64)
  | sha256Finish (a0 a1 a2 : Word64)
  | sha256Digest
  | sha256Erase
  | sha384Init
  | sha384Cycle (a0 a1 : Word64)
  | sha384Finish (a0 a1 a2 : Word64)
  | sha384Digest
  | sha384Erase
  deriving DecidableEq, Repr

/-- The core a command addresses (R93). -/
def Instr.coreId : Instr → CoreId
  | .ripemd256Init => .ripemd256
  | .ripemd256Cycle _ _ => .ripemd256
  | .ripemd256Finish _ _ _ => .ripemd256
  | .ripemd256Digest => .ripemd256
  | .ripemd256Erase => .ripemd256
  | .sha1Init => .sha1
  | .sha1Cycle _ _ => .sha1
  | .sha1Finish _ _ _ => .sha1
  | .sha1Digest => .sha1
  | .sha1Erase => .sha1
  | .sha256Init => .sha256
  | .sha256Cycle _ _ => .sha256
  | .sha256Finish _ _ _ => .sha256
  | .sha256Digest => .sha256
  | .sha256Erase => .sha256
  | .sha384Init => .sha384
  | .sha384Cycle _ _ => .sha384
  | .sha384Finish _ _ _ => .sha384
  | .sha384Digest => .sha384
  | .sha384Erase => .sha384

/-- The operation of a command (R92). -/
def Instr.operation : Instr → Operation
  | .ripemd256Init => .init
  | .ripemd256Cycle _ _ => .cycle
  | .ripemd256Finish _ _ _ => .finish
  | .ripemd256Digest => .digest
  | .ripemd256Erase => .erase
  | .sha1Init => .init
  | .sha1Cycle _ _ => .cycle
  | .sha1Finish _ _ _ => .finish
  | .sha1Digest => .digest
  | .sha1Erase => .erase
  | .sha256Init => .init
  | .sha256Cycle _ _ => .cycle
  | .sha256Finish _ _ _ => .finish
  | .sha256Digest => .digest
  | .sha256Erase => .erase
  | .sha384Init => .init
  | .sha384Cycle _ _ => .cycle
  | .sha384Finish _ _ _ => .finish
  | .sha384Digest => .digest
  | .sha384Erase => .erase

end Sys2Proof
end

