-- ==== Sys2Proof/WellFormed.lean ====
section
/-! DEFINITION. The command as the host presents it, and which presented commands are well formed
(`30_encoding.md` R91, R92, R97). -/

namespace Sys2Proof

/-- A command as sampled from the command port: the command word and the three operand registers
(`30_encoding.md` R90, `10_state.md` R27). -/
structure Command where
  cw : Word32
  a0 : Word64
  a1 : Word64
  a2 : Word64
  deriving DecidableEq, Repr

/-- The reserved field `RSV2`, bits 31:8, is 0 (R91). -/
def Command.highReservedClear (c : Command) : Bool :=
  c.cw &&& 0xFFFFFF00 == 0

/-- The reserved field `RSV1`, bits 3:2, is 0 (R91). -/
def Command.lowReservedClear (c : Command) : Bool :=
  c.cw &&& 0x0000000C == 0

/-- `OP`, bits 7:4, is one of the five operations 1 to 5 (R92). -/
def Command.operationDefined (c : Command) : Bool :=
  let op := c.cw &&& 0x000000F0
  op == 0x10 || op == 0x20 || op == 0x30 || op == 0x40 || op == 0x50

/-- A command is well formed when its command word is one of the 20 defined words; its operands may hold anything
(R94, R97). -/
def Command.wellFormed (c : Command) : Bool :=
  c.highReservedClear && c.lowReservedClear && c.operationDefined

end Sys2Proof
end

