-- ==== Sys2Proof/Decode.lean ====
section
/-! DEFINITION. The decoder, total on every command, rejecting by name (`30_encoding.md` R91 to R93, R97, R102), and the
encoder, written from the words of the opcode map (R103).

The spec lays out no bytes for a command (the ports' place in a host's address map is the platform's business,
`20_memory.md` R74): the decoder reads the port registers. `Command.toNat` and `Command.ofNat` number the bits as
the opcode table does: `CW` is bits 31..0, `A0` bits 95..32, `A1` bits 159..96, `A2` bits 223..160
(assumption 8). -/

namespace Sys2Proof

/-- Why a command word decodes to no command; all three raise `IllegalCommand` (R97). -/
inductive DecodeError where
  /-- `RSV2` (bits 31:8) is not 0. -/
  | highReservedSet
  /-- `RSV1` (bits 3:2) is not 0. -/
  | lowReservedSet
  /-- `OP` (bits 7:4) is 0 or 6 to 15. -/
  | reservedOperation
  deriving DecidableEq, Repr

/-- The field `RSV2`, bits 31:8 (R91). -/
def rsv2Field (cw : Word32) : BitVec 24 := cw.extractLsb' 8 24

/-- The field `OP`, bits 7:4 (R91). -/
def opField (cw : Word32) : BitVec 4 := cw.extractLsb' 4 4

/-- The field `RSV1`, bits 3:2 (R91). -/
def rsv1Field (cw : Word32) : BitVec 2 := cw.extractLsb' 2 2

/-- The field `ALG`, bits 1:0 (R91). -/
def algField (cw : Word32) : BitVec 2 := cw.extractLsb' 0 2

/-- `core_of(alg)` (R93): all four values are used. -/
def coreOf (alg : BitVec 2) : CoreId :=
  match alg.toNat with
  | 0 => .ripemd256
  | 1 => .sha1
  | 2 => .sha256
  | _ => .sha384

/-- `operation_of(op)` (R92): 0 and 6 to 15 are reserved. -/
def operationOf (op : BitVec 4) : Option Operation :=
  match op.toNat with
  | 1 => some .init
  | 2 => some .cycle
  | 3 => some .finish
  | 4 => some .digest
  | 5 => some .erase
  | _ => none

/-- The command of a core and an operation, with the operands R94 gives the operation; the others are ignored. -/
def instrOf (core : CoreId) (op : Operation) (a0 a1 a2 : Word64) : Instr :=
  match core, op with
  | .ripemd256, .init => .ripemd256Init
  | .ripemd256, .cycle => .ripemd256Cycle a0 a1
  | .ripemd256, .finish => .ripemd256Finish a0 a1 a2
  | .ripemd256, .digest => .ripemd256Digest
  | .ripemd256, .erase => .ripemd256Erase
  | .sha1, .init => .sha1Init
  | .sha1, .cycle => .sha1Cycle a0 a1
  | .sha1, .finish => .sha1Finish a0 a1 a2
  | .sha1, .digest => .sha1Digest
  | .sha1, .erase => .sha1Erase
  | .sha256, .init => .sha256Init
  | .sha256, .cycle => .sha256Cycle a0 a1
  | .sha256, .finish => .sha256Finish a0 a1 a2
  | .sha256, .digest => .sha256Digest
  | .sha256, .erase => .sha256Erase
  | .sha384, .init => .sha384Init
  | .sha384, .cycle => .sha384Cycle a0 a1
  | .sha384, .finish => .sha384Finish a0 a1 a2
  | .sha384, .digest => .sha384Digest
  | .sha384, .erase => .sha384Erase

/-- `decode(CW)` with the operands sampled beside it (R102). -/
def decode (c : Command) : Except DecodeError Instr :=
  if rsv2Field c.cw ≠ 0 then .error .highReservedSet
  else if rsv1Field c.cw ≠ 0 then .error .lowReservedSet
  else
    match operationOf (opField c.cw) with
    | none => .error .reservedOperation
    | some op => .ok (instrOf (coreOf (algField c.cw)) op c.a0 c.a1 c.a2)

/-- The command word and operands of each command, word by word from the opcode map (R103); an operand the command
ignores is written 0 (R100). -/
def encode : Instr → Command
  | .ripemd256Init => ⟨0x00000010, 0, 0, 0⟩
  | .ripemd256Cycle a0 a1 => ⟨0x00000020, a0, a1, 0⟩
  | .ripemd256Finish a0 a1 a2 => ⟨0x00000030, a0, a1, a2⟩
  | .ripemd256Digest => ⟨0x00000040, 0, 0, 0⟩
  | .ripemd256Erase => ⟨0x00000050, 0, 0, 0⟩
  | .sha1Init => ⟨0x00000011, 0, 0, 0⟩
  | .sha1Cycle a0 a1 => ⟨0x00000021, a0, a1, 0⟩
  | .sha1Finish a0 a1 a2 => ⟨0x00000031, a0, a1, a2⟩
  | .sha1Digest => ⟨0x00000041, 0, 0, 0⟩
  | .sha1Erase => ⟨0x00000051, 0, 0, 0⟩
  | .sha256Init => ⟨0x00000012, 0, 0, 0⟩
  | .sha256Cycle a0 a1 => ⟨0x00000022, a0, a1, 0⟩
  | .sha256Finish a0 a1 a2 => ⟨0x00000032, a0, a1, a2⟩
  | .sha256Digest => ⟨0x00000042, 0, 0, 0⟩
  | .sha256Erase => ⟨0x00000052, 0, 0, 0⟩
  | .sha384Init => ⟨0x00000013, 0, 0, 0⟩
  | .sha384Cycle a0 a1 => ⟨0x00000023, a0, a1, 0⟩
  | .sha384Finish a0 a1 a2 => ⟨0x00000033, a0, a1, a2⟩
  | .sha384Digest => ⟨0x00000043, 0, 0, 0⟩
  | .sha384Erase => ⟨0x00000053, 0, 0, 0⟩

/-- The bits of a command as one number, `CW` lowest, then `A0`, `A1`, `A2` (assumption 8). -/
def Command.toNat (c : Command) : Nat :=
  c.cw.toNat + 2 ^ 32 * c.a0.toNat + 2 ^ 96 * c.a1.toNat + 2 ^ 160 * c.a2.toNat

/-- The command whose bits are `n`, numbered as in `Command.toNat`. -/
def Command.ofNat (n : Nat) : Command where
  cw := BitVec.ofNat 32 n
  a0 := BitVec.ofNat 64 (n / 2 ^ 32)
  a1 := BitVec.ofNat 64 (n / 2 ^ 96)
  a2 := BitVec.ofNat 64 (n / 2 ^ 160)

/-- The command the table numbers `w` in `nbits` bits: every bit above `nbits` is 0. -/
def tableCommand (nbits w : Nat) : Command := Command.ofNat (w % 2 ^ nbits)

/-- What the decoder reads from the instruction whose bits are `w`, numbered as the opcode table numbers them. -/
def decodeTableWord (nbits w : Nat) : Option Instr :=
  match decode (tableCommand nbits w) with
  | .error _ => none
  | .ok i => some i

end Sys2Proof
end

