-- ==== Sys2Proof/Machine/State.lean ====
section
/-! DEFINITION. The state of the block (`10_state.md`), the host's inputs it has not consumed yet, and the reasons a step can
stop. Plain data throughout. The working registers, `X`, `W` and the sequencer's counters live inside one command
and are no state (R20, R39). -/

namespace Sys2Proof.Machine

/-- A HashState of eight `w`-bit words, `H[c][0]` first (R21): RIPEMD256, SHA256 (`w` = 32), SHA384 (`w` = 64). The
same shape serves as the eight working registers of a compression (R30). -/
structure Hash8 (w : Nat) where
  h0 : BitVec w
  h1 : BitVec w
  h2 : BitVec w
  h3 : BitVec w
  h4 : BitVec w
  h5 : BitVec w
  h6 : BitVec w
  h7 : BitVec w
  deriving DecidableEq, Repr

/-- A HashState of five `w`-bit words, `H[c][0]` first (R21): SHA1 (`w` = 32), and its five working registers (R30). -/
structure Hash5 (w : Nat) where
  h0 : BitVec w
  h1 : BitVec w
  h2 : BitVec w
  h3 : BitVec w
  h4 : BitVec w
  deriving DecidableEq, Repr

/-- The values of `phase[c]` (R24). Their 2-bit codes are `phaseCode` in `Machine/Flags.lean`. -/
inductive Phase where
  /-- IDLE = 0: no instance since reset or ERASE. -/
  | idle
  /-- ACTIVE = 1: constructed, no FINISH yet. -/
  | active
  /-- FINAL = 2: FINISH has executed. -/
  | final
  /-- FAULTED = 3: a command of this core ended in a fault. -/
  | faulted
  deriving DecidableEq, Repr

/-- The five faults of the spec (`60_exceptions.md` R270). They are answered in the response and latched in `fcode`;
the machine goes on, so they are next states of the model and not its `Fault`. -/
inductive Cause where
  /-- 1: `decode(CW) = Illegal`. -/
  | illegalCommand
  /-- 2: the phase of the addressed core does not admit the command. -/
  | badPhase
  /-- 3: FINISH with `A1 > 2*BS - LFS - 1`. -/
  | tailTooLong
  /-- 4: the byte range passes the top of the address space. -/
  | addrRange
  /-- 5: a byte of the range is not readable. -/
  | readFault
  deriving DecidableEq, Repr

/-- The registers of one core: HashState `H[c]` (R21), `phase[c]` (R24), `fcode[c]` (R26). -/
structure CoreRegs (α : Type) where
  h : α
  phase : Phase
  fcode : BitVec 3
  deriving DecidableEq, Repr

/-- The addresses from `first` on and below `past`. -/
structure Region where
  first : Nat
  past : Nat
  deriving DecidableEq, Repr

/-- Message memory `MSG` (`20_memory.md` R61) and the parameter `Readable` (`00_scope.md` R10, R63), the host's and the
platform's. `cells` lists the bytes that differ from what an unlisted address holds, whether they are readable or not;
`regions` lists the addresses the block may read, as ranges. Each has one canonical form, `Memory.wf` (assumption 1). -/
structure Memory where
  cells : List Host.Cell
  regions : List Region
  deriving DecidableEq, Repr

/-- What the host does, in the order it does it. Commands wait here while the block is busy with an earlier one
(`10_state.md` R29); everything else lands between two commands (`20_memory.md` R76). Assumption 4. -/
inductive HostInput where
  /-- The host writes the four command port registers and presents the command (R27, R29). -/
  | present (c : Command)
  /-- As `present`, and while the command runs the host makes these writes to message memory
  (`70_reset_and_hazards.md` R311, U6). -/
  | presentRaced (c : Command) (writes : List (Word64 × Byte))
  /-- The host presents one command and changes the port to another before acceptance (R310, U7). -/
  | presentChanged (first second : Command)
  /-- The host puts a byte into message memory (R76(a)); which addresses are readable does not change. -/
  | write (addr : Word64) (byte : Byte)
  /-- The platform makes exactly the addresses of these ranges readable; fixed for the duration of a command (R63). -/
  | setReadable (ranges : List Region)
  /-- The reset input is asserted and released with no command running (R300). -/
  | reset
  /-- As `present`, and the reset input is asserted while the command runs and then released (R300, U17). -/
  | presentReset (c : Command)
  deriving DecidableEq, Repr

/-- The state of the machine. The block's own registers are the four cores, `epi`, `rc` and `rdata`; the host writes the
command port; message memory and the inbox are the host's; `draws` is the model's own. -/
structure State where
  /-- `H`, `phase`, `fcode` of RIPEMD256. -/
  ripemd256 : CoreRegs (Hash8 32)
  /-- `H`, `phase`, `fcode` of SHA1. -/
  sha1 : CoreRegs (Hash5 32)
  /-- `H`, `phase`, `fcode` of SHA256. -/
  sha256 : CoreRegs (Hash8 32)
  /-- `H`, `phase`, `fcode` of SHA384. -/
  sha384 : CoreRegs (Hash8 64)
  /-- The epilogue buffer `EPI[0..255]` (R31). -/
  epi : List Byte
  /-- Command port: the command word `CW` (R27). -/
  cw : Word32
  /-- Command port: operand `A0` (R27). -/
  a0 : Word64
  /-- Command port: operand `A1` (R27). -/
  a1 : Word64
  /-- Command port: operand `A2` (R27). -/
  a2 : Word64
  /-- Response port: `RC` (R28). -/
  rc : BitVec 8
  /-- Response port: the 48 bytes of `RDATA`, byte 0 first (R28). -/
  rdata : List Byte
  /-- Message memory and `Readable` (`20_memory.md` R61, R63), not the block's. -/
  mem : Memory
  /-- The host's inputs that have not landed yet, next one first. -/
  inbox : List HostInput
  /-- How many free values have been drawn; the model's own (assumptions 3 and 5). -/
  draws : Nat
  deriving DecidableEq, Repr

/-- Why the machine stops with a fault: never. The spec's five faults are responses (`60_exceptions.md` R273: "the block
is ready for the next command"), and the spec names no condition that stops the block, so this type has no
constructor and `fault` is no outcome of any step. -/
inductive Fault where
  deriving DecidableEq, Repr

/-- Why a step is given no meaning. -/
inductive Refusal where
  /-- Raised by `exec` for an instruction that has no meaning yet; no arm raises it now. Safe. -/
  | notModelled (mnemonic : String)
  /-- Raised by a step whose input is `HostInput.presentChanged`: "which operand values are sampled is not defined by
  this spec" (`70_reset_and_hazards.md` R310; `93_implementation_defined.md` U7 says refuse). No instruction raises
  it. Safe. -/
  | portChangedBeforeAcceptance
  deriving DecidableEq, Repr

/-- Eight zero words. -/
def Hash8.zero (w : Nat) : Hash8 w := ⟨0, 0, 0, 0, 0, 0, 0, 0⟩

/-- Five zero words. -/
def Hash5.zero (w : Nat) : Hash5 w := ⟨0, 0, 0, 0, 0⟩

/-- A core after reset or ERASE: zero HashState, IDLE, fault code 0 (R40, `45_eraser.md` R252). -/
def CoreRegs.cleared {α : Type} (zero : α) : CoreRegs α := ⟨zero, .idle, 0⟩

/-- The memory of a platform that lets the block read every address (R10: `Readable = fun _ => true`), with nothing listed
(assumption 1). -/
def Memory.allReadable : Memory := ⟨[], [⟨0, Config.addrSpace⟩]⟩

/-- The state right after reset (R40) beside the message memory and `Readable` of `m`, the model's argument for R10: all
HashState words 0, phases IDLE, fault codes 0, `EPI`, `RC` and `RDATA` zero. The command port has no reset value (R27):
0 here (assumption 2). No input waits (assumption 4), no free value has been drawn (assumption 3). -/
def State.resetOn (m : Memory) : State where
  ripemd256 := .cleared (Hash8.zero 32)
  sha1 := .cleared (Hash5.zero 32)
  sha256 := .cleared (Hash8.zero 32)
  sha384 := .cleared (Hash8.zero 64)
  epi := List.replicate Config.epiSize 0
  cw := 0
  a0 := 0
  a1 := 0
  a2 := 0
  rc := 0
  rdata := List.replicate Config.rdataSize 0
  mem := m
  inbox := []
  draws := 0

/-- The state right after reset on a platform without read faults (assumption 1); `State.resetOn` is that of any other. -/
def State.reset : State := .resetOn .allReadable

end Sys2Proof.Machine
end

