-- ==== Sys2Proof/Machine/Operands.lean ====
section
/-! DEFINITION. Word operators, byte/word conversions (`00_scope.md` R13, R14), block words (`20_memory.md` R66), and the
operand forms of the commands (`30_encoding.md` R94). -/

namespace Sys2Proof.Machine

/-- `rotl_w(x, n)` for `0 ≤ n < w`: `((x * 2^n) mod 2^w) | floor(x / 2^(w-n))`, and `x` for `n = 0` (R13). -/
def rotl {w : Nat} (x : BitVec w) (n : Nat) : BitVec w :=
  if n = 0 then x else (x <<< n) ||| (x >>> (w - n))

/-- `rotr_w(x, n) = rotl_w(x, (w - n) mod w)` (R13). -/
def rotr {w : Nat} (x : BitVec w) (n : Nat) : BitVec w :=
  rotl x ((w - n) % w)

/-- The number of a byte sequence read with its first byte most significant (R14). -/
def beNat (b : List Byte) : Nat :=
  b.foldl (fun acc x => 256 * acc + x.toNat) 0

/-- The number of a byte sequence read with its first byte least significant (R14). -/
def leNat (b : List Byte) : Nat :=
  b.foldr (fun x acc => x.toNat + 256 * acc) 0

/-- `be_w(b)` (R14). -/
def beWord (w : Nat) (b : List Byte) : BitVec w := BitVec.ofNat w (beNat b)

/-- `le_w(b)` (R14). -/
def leWord (w : Nat) (b : List Byte) : BitVec w := BitVec.ofNat w (leNat b)

/-- `to_be_w(v)`: byte `i` is `v[8*(n-1-i)+7 : 8*(n-1-i)]`, `n = w/8` (R14). -/
def toBeBytes {w : Nat} (v : BitVec w) : List Byte :=
  (List.range (w / 8)).map fun i => v.extractLsb' (8 * (w / 8 - 1 - i)) 8

/-- `to_le_w(v)`: byte `i` is `v[8*i+7 : 8*i]`, `n = w/8` (R14). -/
def toLeBytes {w : Nat} (v : BitVec w) : List Byte :=
  (List.range (w / 8)).map fun i => v.extractLsb' (8 * i) 8

/-- `bswap_w(x) = le_w(to_be_w(x))` (R13). -/
def bswap {w : Nat} (x : BitVec w) : BitVec w := leWord w (toBeBytes x)

/-- The `n` bytes of `b` from offset `off` on. -/
def bytesAt (b : List Byte) (off n : Nat) : List Byte := (b.drop off).take n

/-- The 16 block words `X[i]`, word `i` read from bytes `i*WS .. i*WS+WS-1` in the core's byte order (`20_memory.md` R66,
`10_state.md` R34). -/
def blockWords {w : Nat} (toWord : List Byte → BitVec w) (b : List Byte) : List (BitVec w) :=
  (List.range 16).map fun i => toWord (bytesAt b (i * (w / 8)) (w / 8))

/-- `addr + n ≤ 2^64`, on unbounded integers: the range does not pass the top of the address space (`20_memory.md` R65). -/
def rangeFits (addr n : Nat) : Bool := decide (addr + n ≤ Config.addrSpace)

/-- `total * 8 mod 2^64`, the low word of every length field (`40_sequencer.md` R127). -/
def bitLengthLow (total : Word64) : Word64 := BitVec.ofNat 64 (total.toNat * 8)

/-- `shr(total, 61)`, the high word of SHA384's length field (R127). -/
def bitLengthHigh (total : Word64) : Word64 := total >>> 61

/-- Word `i` of a table or a schedule. Every index a rule uses is in range. -/
def wordAt {w : Nat} (t : List (BitVec w)) (i : Nat) : BitVec w := t.getD i 0

/-- The words of a HashState, `H[0]` first. -/
def Hash8.toList {w : Nat} (h : Hash8 w) : List (BitVec w) :=
  [h.h0, h.h1, h.h2, h.h3, h.h4, h.h5, h.h6, h.h7]

/-- `f` on every word. -/
def Hash8.map {w : Nat} (f : BitVec w → BitVec w) (h : Hash8 w) : Hash8 w :=
  ⟨f h.h0, f h.h1, f h.h2, f h.h3, f h.h4, f h.h5, f h.h6, f h.h7⟩

/-- The add-back: word by word modulo `2^w` (`40_sequencer.md` R123, R134(a)). -/
def Hash8.add {w : Nat} (h r : Hash8 w) : Hash8 w :=
  ⟨h.h0 + r.h0, h.h1 + r.h1, h.h2 + r.h2, h.h3 + r.h3, h.h4 + r.h4, h.h5 + r.h5, h.h6 + r.h6, h.h7 + r.h7⟩

/-- The words of a HashState, `H[0]` first. -/
def Hash5.toList {w : Nat} (h : Hash5 w) : List (BitVec w) :=
  [h.h0, h.h1, h.h2, h.h3, h.h4]

/-- `f` on every word. -/
def Hash5.map {w : Nat} (f : BitVec w → BitVec w) (h : Hash5 w) : Hash5 w :=
  ⟨f h.h0, f h.h1, f h.h2, f h.h3, f h.h4⟩

/-- The add-back: word by word modulo `2^w` (`40_sequencer.md` R123, R134(a)). -/
def Hash5.add {w : Nat} (h r : Hash5 w) : Hash5 w :=
  ⟨h.h0 + r.h0, h.h1 + r.h1, h.h2 + r.h2, h.h3 + r.h3, h.h4 + r.h4⟩

/-- The byte image of a HashState: each word least significant byte first, words in order (`10_state.md` R42,
`00_scope.md` R19). -/
def byteImage {w : Nat} (words : List (BitVec w)) : List Byte :=
  (words.map toLeBytes).flatten

end Sys2Proof.Machine
end

