-- ==== Sys2Proof/Machine/Flags.lean ====
section
/-! DEFINITION. Flags and status: the codes of `phase` and of the faults, the phase test, and the latching of `fcode`
(`10_state.md` R24 to R26, `60_exceptions.md` R270, R273). There are no other flags (R38). -/

namespace Sys2Proof.Machine

/-- The 2-bit value of `phase[c]` (R24). -/
def phaseCode : Phase → BitVec 2
  | .idle => 0
  | .active => 1
  | .final => 2
  | .faulted => 3

/-- The code of a fault, as `fcode[c]` holds it (R270). -/
def causeCode : Cause → BitVec 3
  | .illegalCommand => 1
  | .badPhase => 2
  | .tailTooLong => 3
  | .addrRange => 4
  | .readFault => 5

/-- The code of a fault, as `RC` holds it (R270). -/
def causeRc (c : Cause) : BitVec 8 := (causeCode c).setWidth 8

/-- The phase test of `40_sequencer.md` R120: ERASE in every phase; INIT only in IDLE; CYCLE, FINISH and DIGEST in ACTIVE
and FINAL (`60_exceptions.md` R271). -/
def admits : Operation → Phase → Bool
  | .erase, _ => true
  | .init, .idle => true
  | .init, .active => false
  | .init, .final => false
  | .init, .faulted => false
  | .cycle, .idle => false
  | .cycle, .active => true
  | .cycle, .final => true
  | .cycle, .faulted => false
  | .finish, .idle => false
  | .finish, .active => true
  | .finish, .final => true
  | .finish, .faulted => false
  | .digest, .idle => false
  | .digest, .active => true
  | .digest, .final => true
  | .digest, .faulted => false

/-- The phase after an operation that answers OK (R25). -/
def phaseAfter : Operation → Phase → Phase
  | .init, _ => .active
  | .cycle, p => p
  | .finish, _ => .final
  | .digest, p => p
  | .erase, _ => .idle

/-- `fcode[c]` after a fault: the code of the fault that moved the core to FAULTED, kept while it is FAULTED (R26,
`60_exceptions.md` R273(b), R275). -/
def fcodeAfter (phase : Phase) (fcode : BitVec 3) (c : Cause) : BitVec 3 :=
  match phase with
  | .faulted => fcode
  | .idle => causeCode c
  | .active => causeCode c
  | .final => causeCode c

end Sys2Proof.Machine
end

