-- ==== Sys2Proof/Machine/Ops.lean ====
section
/-! DEFINITION. The named operations over message memory, the response port, the epilogue buffer and a core's registers:
memory reads (`20_memory.md`), raising a fault (`60_exceptions.md` R273), the shared procedures of the sequencer
(`40_sequencer.md` R120 to R130) and of the eraser (`45_eraser.md`), reset (`70_reset_and_hazards.md` R300) and the
host's moves (`46_streaming_engine.md` R265).

A command of core `c` works on a `View` (its core's registers, `EPI`, message memory) and answers an `Effect`; nothing
else of the state is within its reach (`10_state.md` R41). -/

namespace Sys2Proof.Machine

/-! ### Message memory -/

/-- What an unlisted address of message memory holds (assumption 1). -/
def unlistedByte : Byte := 0

/-- The canonical form of the bytes: addresses strictly rising and inside the address space, no entry equal to what an
unlisted address holds. -/
def cellsWf : List Host.Cell → Bool
  | [] => true
  | [c] => decide (c.1 < Config.addrSpace) && decide (c.2 ≠ unlistedByte)
  | c :: d :: rest => decide (c.1 < d.1) && decide (c.2 ≠ unlistedByte) && cellsWf (d :: rest)

/-- The byte a list of cells holds at `a`. -/
def cellByte : List Host.Cell → Nat → Byte
  | [], _ => unlistedByte
  | c :: rest, a => if c.1 = a then c.2 else cellByte rest a

/-- The cells with `b` at `a`. -/
def putCell : List Host.Cell → Nat → Byte → List Host.Cell
  | [], a, b => [(a, b)]
  | c :: rest, a, b =>
    if a < c.1 then (a, b) :: c :: rest
    else if a = c.1 then (a, b) :: rest
    else c :: putCell rest a b

/-- The cells with `a` unlisted. -/
def eraseCell : List Host.Cell → Nat → List Host.Cell
  | [], _ => []
  | c :: rest, a => if a = c.1 then rest else c :: eraseCell rest a

/-- The canonical form of `Readable`: ranges that are not empty, rise, leave a gap between them and stay inside the address
space. -/
def regionsWf : List Region → Bool
  | [] => true
  | [r] => decide (r.first < r.past) && decide (r.past ≤ Config.addrSpace)
  | r :: q :: rest => decide (r.first < r.past) && decide (r.past < q.first) && regionsWf (q :: rest)

/-- `a` lies in one of the ranges. -/
def regionsHold (l : List Region) (a : Nat) : Bool := l.any fun r => decide (r.first ≤ a) && decide (a < r.past)

/-- The ranges with `r` added, joined with those it meets. -/
def joinRegion : Region → List Region → List Region
  | r, [] => [r]
  | r, q :: rest =>
    if r.past < q.first then r :: q :: rest
    else if q.past < r.first then q :: joinRegion r rest
    else joinRegion ⟨min r.first q.first, max r.past q.past⟩ rest

/-- The ranges with the addresses of `r` that exist added. -/
def addRegion (r : Region) (l : List Region) : List Region :=
  if r.first < min r.past Config.addrSpace then joinRegion ⟨r.first, min r.past Config.addrSpace⟩ l else l

/-- The canonical form of message memory and `Readable`. -/
def Memory.wf (m : Memory) : Bool := cellsWf m.cells && regionsWf m.regions

/-- `MSG[a]`, readable or not (R61). -/
def Memory.byte (m : Memory) (a : Nat) : Byte := cellByte m.cells a

/-- The parameter `Readable` (`00_scope.md` R10, `20_memory.md` R63). -/
def Memory.readable (m : Memory) (a : Nat) : Bool := regionsHold m.regions a

/-- What the block gets at `a`: `MSG[a]` where `a` is `Readable`, nothing where it is not (R64). -/
def Memory.read (m : Memory) (a : Nat) : Option Byte := if m.readable a then some (m.byte a) else none

/-- The memory with `b` at `a`; `Readable` does not change. -/
def Memory.write (m : Memory) (a : Nat) (b : Byte) : Memory :=
  { m with cells := if b = unlistedByte then eraseCell m.cells a else putCell m.cells a b }

/-- The memory in which exactly the addresses of `ranges` are readable; no byte changes. -/
def Memory.setReadable (m : Memory) (ranges : List Region) : Memory :=
  { m with regions := ranges.foldr addRegion [] }

/-- A list of host writes, first one first. -/
def Memory.writeAll : Memory → List (Word64 × Byte) → Memory
  | m, [] => m
  | m, w :: ws => Memory.writeAll (m.write w.1.toNat w.2) ws

/-- `MemRead(addr, n)`: the `n` bytes from `addr` on, or nothing where one is not readable; `MemRead(addr, 0)` is the empty
sequence (R64). -/
def memRead (m : Memory) (addr : Nat) : Nat → Option (List Byte)
  | 0 => some []
  | n + 1 =>
    match m.read addr with
    | none => none
    | some b =>
      match memRead m (addr + 1) n with
      | none => none
      | some bs => some (b :: bs)

/-- What the block may see of memory while the host makes the writes `ws`: each byte written is old or new, a free draw
(R311); `Readable` does not change during a command (R63). -/
def raceView : Memory → Nat → List (Word64 × Byte) → Memory
  | m, _, [] => m
  | m, n, w :: ws =>
    if Config.raceTaken n then raceView (m.write w.1.toNat w.2) (n + 1) ws
    else raceView m (n + 1) ws

/-! ### The view and the effect of a command -/

/-- What a command of one core can read. -/
structure View (α : Type) where
  regs : CoreRegs α
  epi : List Byte
  draws : Nat
  mem : Memory

/-- What a command of one core can write: its registers, `EPI`, the response, and the model's count of free values. -/
structure Effect (α : Type) where
  regs : CoreRegs α
  epi : List Byte
  draws : Nat
  rc : BitVec 8
  rdata : List Byte

/-- One core's algorithm: its row of R8, its initial value, its compression function and its share of FINISH and DIGEST. -/
structure Alg (α : Type) where
  /-- `BS`, bytes in a block. -/
  bs : Nat
  /-- `LFS`, bytes in the length field. -/
  lfs : Nat
  /-- `DS`, bytes in the digest. -/
  ds : Nat
  /-- `NW`, words in the HashState. -/
  nw : Nat
  /-- `IV_c`. -/
  iv : α
  /-- The erased HashState. -/
  zero : α
  /-- `AbsorbBlock_c`: the block words by R66, then `Compress_c` (`40_sequencer.md` R123). -/
  absorb : α → List Byte → α
  /-- The byte swap after the last block of FINISH (R128); nothing for RIPEMD256. -/
  finalSwap : α → α
  /-- The little-endian byte image of the HashState (`10_state.md` R42). -/
  image : α → List Byte
  /-- `LengthField_c(total)` (R127). -/
  lengthField : Word64 → List Byte
  /-- `NW` free words, drawn from number `n` on. -/
  drawHash : Nat → α

/-- `TMAX = 2*BS - LFS - 1`, the largest tail FINISH accepts (R8). -/
def tailLimit {α : Type} (A : Alg α) : Nat := 2 * A.bs - A.lfs - 1

/-- `respond OK(d)`: `RDATA` is `d` and zeros up to 48 bytes (`30_encoding.md` R95). -/
def padResponse (d : List Byte) : List Byte :=
  d ++ List.replicate (Config.rdataSize - d.length) 0

/-- `RDATA` of every response that carries no digest: 48 zero bytes (R95). -/
def noData : List Byte := List.replicate Config.rdataSize 0

/-- `respond OK`, the core's registers left as `k` (R95). -/
def respondOk {α : Type} (v : View α) (k : CoreRegs α) : Effect α :=
  { regs := k, epi := v.epi, draws := v.draws, rc := 0, rdata := noData }

/-- TAKING A FAULT: `raise Fault(f)` for a decoded command (`60_exceptions.md` R273): latch the code unless the core is
already FAULTED, make the core FAULTED, answer the code with no data. Nothing is saved and no control is
transferred. Part (a), the wipe of `EPI`, is `wiped`; the return, R274, is `eraseCommand`. -/
def raise {α : Type} (c : Cause) (v : View α) : Effect α :=
  { regs := { v.regs with phase := .faulted, fcode := fcodeAfter v.regs.phase v.regs.fcode c }
    epi := v.epi
    draws := v.draws
    rc := causeRc c
    rdata := noData }

/-- The wipe of the epilogue buffer: all 256 bytes, whatever was used (`45_eraser.md` R254). -/
def wiped {α : Type} (v : View α) : View α :=
  { v with epi := List.replicate Config.epiSize 0 }

/-! ### INIT -/

/-- `Init_c()` under the phase test of R120 (R121). -/
def initCommand {α : Type} (A : Alg α) (v : View α) : Effect α :=
  if admits .init v.regs.phase then
    respondOk v { v.regs with h := A.iv, phase := phaseAfter .init v.regs.phase }
  else raise .badPhase v

/-! ### CYCLE -/

/-- Blocks `k`, `k+1`, … (`n` of them) from `ptr`, each read whole and then absorbed; the number of the first block that
has an unreadable byte, where there is one (R122). -/
def absorbBlocks {α : Type} (A : Alg α) (m : Memory) (ptr : Nat) : Nat → Nat → α → Except Nat α
  | _, 0, h => .ok h
  | k, n + 1, h =>
    match memRead m (ptr + k * A.bs) A.bs with
    | none => .error k
    | some b => absorbBlocks A m ptr (k + 1) n (A.absorb h b)

/-- The registers and count a `ReadFault` at block `k` of a CYCLE leaves behind: `H[c]` keeps its value for `k = 0` and is
unspecified, so freely drawn, after it (`60_exceptions.md` R273(d), `40_sequencer.md` R140, assumption 3). -/
def faultedAtBlock {α : Type} (A : Alg α) (k : Nat) (v : View α) : View α :=
  if k = 0 then v
  else { v with regs := { v.regs with h := A.drawHash v.draws }, draws := v.draws + A.nw }

/-- `Cycle_c(ptr, count)` under the phase test of R120 (R122). -/
def cycleCommand {α : Type} (A : Alg α) (ptr count : Word64) (v : View α) : Effect α :=
  if admits .cycle v.regs.phase then
    if rangeFits ptr.toNat (count.toNat * A.bs) then
      match absorbBlocks A v.mem ptr.toNat 0 count.toNat v.regs.h with
      | .ok h => respondOk v { v.regs with h := h, phase := phaseAfter .cycle v.regs.phase }
      | .error k => raise .readFault (faultedAtBlock A k v)
    else raise .addrRange v
  else raise .badPhase v

/-! ### FINISH -/

/-- `EPI[off + i] <- b[i]`, in order (R124). -/
def storeBytes : List Byte → Nat → List Byte → List Byte
  | epi, _, [] => epi
  | epi, off, b :: bs => storeBytes (epi.set off b) (off + 1) bs

/-- `nblk`: one epilogue block when the tail, the marker and the length field fit in it, else two (R126). -/
def epilogueBlocks {α : Type} (A : Alg α) (tailSize : Nat) : Nat :=
  if tailSize + 1 + A.lfs ≤ A.bs then 1 else 2

/-- The epilogue written into `EPI`: the tail, `0x80`, and the length field in the last `LFS` bytes of the last block
(R124, R125). -/
def buildEpilogue {α : Type} (A : Alg α) (tail : List Byte) (total : Word64) (epi : List Byte) : List Byte :=
  let withTail := storeBytes epi 0 tail
  let withMarker := storeBytes withTail tail.length [0x80]
  storeBytes withMarker (epilogueBlocks A tail.length * A.bs - A.lfs) (A.lengthField total)

/-- Blocks `0 .. nblk-1` of `EPI`, absorbed in order (R124, R123). -/
def absorbEpilogue {α : Type} (A : Alg α) (epi : List Byte) (nblk : Nat) (h : α) : α :=
  (List.range nblk).foldl (fun h k => A.absorb h (bytesAt epi (k * A.bs) A.bs)) h

/-- The successful end of `Finish_c` with the tail bytes `t`: build, absorb, wipe, swap, FINAL (R124, R128). -/
def finishWithTail {α : Type} (A : Alg α) (t : List Byte) (total : Word64) (v : View α) : Effect α :=
  let epi := buildEpilogue A t total v.epi
  let chained := absorbEpilogue A epi (epilogueBlocks A t.length) v.regs.h
  respondOk (wiped v) { v.regs with h := A.finalSwap chained, phase := phaseAfter .finish v.regs.phase }

/-- `Finish_c(tail, tailSize, total)` under the phase test of R120; `EPI` is wiped at each of its four exits (R124). -/
def finishCommand {α : Type} (A : Alg α) (tail tailSize total : Word64) (v : View α) : Effect α :=
  if admits .finish v.regs.phase then
    if tailSize.toNat > tailLimit A then raise .tailTooLong (wiped v)
    else if !rangeFits tail.toNat tailSize.toNat then raise .addrRange (wiped v)
    else
      match memRead v.mem tail.toNat tailSize.toNat with
      | none => raise .readFault (wiped v)
      | some t => finishWithTail A t total v
  else raise .badPhase v

/-! ### DIGEST and ERASE -/

/-- `DigestBytes_c(H)`: the first `DS` bytes of the byte image of the HashState (`10_state.md` R42). -/
def digestBytes {α : Type} (A : Alg α) (h : α) : List Byte := (A.image h).take A.ds

/-- `Digest_c()` under the phase test of R120: no state changes, the digest is the response (R129). -/
def digestCommand {α : Type} (A : Alg α) (v : View α) : Effect α :=
  if admits .digest v.regs.phase then
    { respondOk v { v.regs with phase := phaseAfter .digest v.regs.phase } with
      rdata := padResponse (digestBytes A v.regs.h) }
  else raise .badPhase v

/-- `Erase_c()`, in any phase: every word zero, `fcode` 0, IDLE (`45_eraser.md` R252). It is also THE RETURN FROM A FAULT:
the only way out of FAULTED (`60_exceptions.md` R274). -/
def eraseCommand {α : Type} (A : Alg α) (v : View α) : Effect α :=
  respondOk v { h := A.zero, phase := phaseAfter .erase v.regs.phase, fcode := 0 }

/-! ### The state: each core's view of it and effect on it -/

/-- What a RIPEMD256 command can read. -/
def State.viewRipemd256 (s : State) : View (Hash8 32) := ⟨s.ripemd256, s.epi, s.draws, s.mem⟩

/-- What a SHA1 command can read. -/
def State.viewSha1 (s : State) : View (Hash5 32) := ⟨s.sha1, s.epi, s.draws, s.mem⟩

/-- What a SHA256 command can read. -/
def State.viewSha256 (s : State) : View (Hash8 32) := ⟨s.sha256, s.epi, s.draws, s.mem⟩

/-- What a SHA384 command can read. -/
def State.viewSha384 (s : State) : View (Hash8 64) := ⟨s.sha384, s.epi, s.draws, s.mem⟩

/-- The state after a RIPEMD256 command. -/
def State.putRipemd256 (s : State) (e : Effect (Hash8 32)) : State :=
  { s with ripemd256 := e.regs, epi := e.epi, draws := e.draws, rc := e.rc, rdata := e.rdata }

/-- The state after a SHA1 command. -/
def State.putSha1 (s : State) (e : Effect (Hash5 32)) : State :=
  { s with sha1 := e.regs, epi := e.epi, draws := e.draws, rc := e.rc, rdata := e.rdata }

/-- The state after a SHA256 command. -/
def State.putSha256 (s : State) (e : Effect (Hash8 32)) : State :=
  { s with sha256 := e.regs, epi := e.epi, draws := e.draws, rc := e.rc, rdata := e.rdata }

/-- The state after a SHA384 command. -/
def State.putSha384 (s : State) (e : Effect (Hash8 64)) : State :=
  { s with sha384 := e.regs, epi := e.epi, draws := e.draws, rc := e.rc, rdata := e.rdata }

/-- `respond Fault(IllegalCommand)`: the response, and no state change at all (`30_encoding.md` R97, `60_exceptions.md`
R273: only (e) happens). -/
def State.illegalCommand (s : State) : State :=
  { s with rc := causeRc .illegalCommand, rdata := noData }

/-! ### The host's moves -/

/-- The host drives the command port registers (`10_state.md` R27). -/
def State.setPort (s : State) (c : Command) : State :=
  { s with cw := c.cw, a0 := c.a0, a1 := c.a1, a2 := c.a2 }

/-- The command the port holds, sampled at acceptance (R27). -/
def State.port (s : State) : Command := ⟨s.cw, s.a0, s.a1, s.a2⟩

/-- The inbox after its first input is taken. -/
def State.setInbox (s : State) (rest : List HostInput) : State := { s with inbox := rest }

/-- Message memory replaced by `m`; the host's, the block never writes it (`20_memory.md` R62). -/
def State.setMem (s : State) (m : Memory) : State := { s with mem := m }

/-- The state in which a command with racing writes `ws` runs: memory as the block may see it, and one free value drawn
for each write (R311). -/
def State.enterRace (s : State) (ws : List (Word64 × Byte)) : State :=
  { s with mem := raceView s.mem s.draws ws, draws := s.draws + ws.length }

/-- After the raced command every racing write has been made. -/
def leaveRace (m : Memory) (ws : List (Word64 × Byte)) :
    Host.Outcome State Fault Refusal → Host.Outcome State Fault Refusal
  | .next t => .next (t.setMem (m.writeAll ws))
  | .fault r => .fault r
  | .refused r => .refused r

/-- Reset (`70_reset_and_hazards.md` R300, `10_state.md` R40): the block's own registers at their reset values. The command
port (R27), message memory and the waiting inputs are the host's and keep what they hold; `draws` is no register. -/
def State.resetBlock (s : State) : State :=
  { s with
    ripemd256 := .cleared (Hash8.zero 32)
    sha1 := .cleared (Hash5.zero 32)
    sha256 := .cleared (Hash8.zero 32)
    sha384 := .cleared (Hash8.zero 64)
    epi := List.replicate Config.epiSize 0
    rc := 0
    rdata := noData }

end Sys2Proof.Machine
end

