-- ==== Sys2Proof/Machine/Ripemd256.lean ====
section
/-! DEFINITION. The RIPEMD256 core and its five commands (`41_ripemd256.md`). -/

namespace Sys2Proof.Machine

/-- `IV_RIPEMD256` (R161). -/
def ripemdIv : Hash8 32 :=
  ⟨0x67452301, 0xEFCDAB89, 0x98BADCFE, 0x10325476, 0x76543210, 0xFEDCBA98, 0x89ABCDEF, 0x01234567⟩

/-- The nonlinear functions `f(i, x, y, z)` (R162). -/
def ripemdF (i : Nat) (x y z : Word32) : Word32 :=
  if i < 16 then x ^^^ y ^^^ z
  else if i < 32 then (x &&& y) ||| (~~~x &&& z)
  else if i < 48 then (x ||| ~~~y) ^^^ z
  else (x &&& z) ||| (y &&& ~~~z)

/-- `K(j)`, the left lane's additive constant (R163). -/
def ripemdK (j : Nat) : Word32 :=
  if j < 16 then 0x00000000
  else if j < 32 then 0x5A827999
  else if j < 48 then 0x6ED9EBA1
  else 0x8F1BBCDC

/-- `KK(j)`, the right lane's additive constant (R163). -/
def ripemdKK (j : Nat) : Word32 :=
  if j < 16 then 0x50A28BE6
  else if j < 32 then 0x5C4DD124
  else if j < 48 then 0x6D703EF3
  else 0x00000000

/-- `r[j]`, the left lane's message-index permutation (R164). -/
def ripemdR : List Nat :=
  [0, 1, 2, 3, 4, 5, 6, 7, 8, 9, 10, 11, 12, 13, 14, 15] ++
  [7, 4, 13, 1, 10, 6, 15, 3, 12, 0, 9, 5, 2, 14, 11, 8] ++
  [3, 10, 14, 4, 9, 15, 8, 1, 2, 7, 0, 6, 13, 11, 5, 12] ++
  [1, 9, 11, 10, 0, 8, 12, 4, 13, 3, 7, 15, 14, 5, 6, 2]

/-- `rr[j]`, the right lane's message-index permutation (R164). -/
def ripemdRR : List Nat :=
  [5, 14, 7, 0, 9, 2, 11, 4, 13, 6, 15, 8, 1, 10, 3, 12] ++
  [6, 11, 3, 7, 0, 13, 5, 10, 14, 15, 8, 12, 4, 9, 1, 2] ++
  [15, 5, 1, 3, 7, 14, 6, 9, 11, 8, 12, 2, 10, 0, 4, 13] ++
  [8, 6, 4, 1, 3, 11, 15, 0, 5, 12, 2, 13, 9, 7, 10, 14]

/-- `s[j]`, the left lane's rotate amounts (R165). -/
def ripemdS : List Nat :=
  [11, 14, 15, 12, 5, 8, 7, 9, 11, 13, 14, 15, 6, 7, 9, 8] ++
  [7, 6, 8, 13, 11, 9, 7, 15, 7, 12, 15, 9, 11, 7, 13, 12] ++
  [11, 13, 6, 7, 14, 9, 13, 15, 14, 8, 13, 6, 5, 12, 7, 5] ++
  [11, 12, 14, 15, 14, 15, 9, 8, 9, 14, 5, 6, 8, 6, 5, 12]

/-- `ss[j]`, the right lane's rotate amounts (R165). -/
def ripemdSS : List Nat :=
  [8, 9, 9, 11, 13, 15, 15, 5, 7, 7, 8, 11, 14, 14, 12, 6] ++
  [9, 13, 15, 7, 12, 8, 9, 11, 7, 7, 12, 7, 6, 15, 13, 11] ++
  [9, 7, 15, 11, 8, 6, 6, 14, 12, 13, 5, 14, 13, 13, 7, 5] ++
  [15, 5, 8, 11, 14, 14, 6, 14, 6, 9, 12, 9, 12, 5, 15, 8]

/-- The cross-lane exchange after round `j`: `A` with `AA` after 15, `B` with `BB` after 31, `C` with `CC` after 47, `D` with
`DD` after 63 (R167; `90_conflicts.md` C1 chooses this order). -/
def ripemdExchange (j : Nat) (v : Hash8 32) : Hash8 32 :=
  match v with
  | ⟨A, B, C, D, AA, BB, CC, DD⟩ =>
    if j = 15 then ⟨AA, B, C, D, A, BB, CC, DD⟩
    else if j = 31 then ⟨A, BB, C, D, AA, B, CC, DD⟩
    else if j = 47 then ⟨A, B, CC, D, AA, BB, C, DD⟩
    else if j = 63 then ⟨A, B, C, DD, AA, BB, CC, D⟩
    else ⟨A, B, C, D, AA, BB, CC, DD⟩

/-- Round `j`: one step of each lane, then the exchange. The working registers are `A, B, C, D, AA, BB, CC, DD` in this
order (R166). -/
def ripemdRound (X : List Word32) (v : Hash8 32) (j : Nat) : Hash8 32 :=
  match v with
  | ⟨A, B, C, D, AA, BB, CC, DD⟩ =>
    let T := rotl (A + ripemdF j B C D + wordAt X (ripemdR.getD j 0) + ripemdK j) (ripemdS.getD j 0)
    let TT := rotl (AA + ripemdF (63 - j) BB CC DD + wordAt X (ripemdRR.getD j 0) + ripemdKK j) (ripemdSS.getD j 0)
    ripemdExchange j ⟨D, T, B, C, DD, TT, BB, CC⟩

/-- The working registers after rounds `0 .. n-1`, seeded from the HashState (R166). -/
def ripemdRounds (H : Hash8 32) (X : List Word32) (n : Nat) : Hash8 32 :=
  (List.range n).foldl (ripemdRound X) H

/-- `Compress_RIPEMD256(H, X)`: 64 rounds and the add-back in lane order (R166, R168). -/
def compressRipemd256 (H : Hash8 32) (X : List Word32) : Hash8 32 :=
  H.add (ripemdRounds H X 64)

/-- The length field, `to_le_64((total * 8) mod 2^64)` (`40_sequencer.md` R127, `20_memory.md` R68). -/
def ripemdLengthField (total : Word64) : List Byte := toLeBytes (bitLengthLow total)

/-- Eight free words (assumption 3). -/
def ripemdDraw (n : Nat) : Hash8 32 :=
  ⟨Config.freeWord32 n, Config.freeWord32 (n + 1), Config.freeWord32 (n + 2), Config.freeWord32 (n + 3),
    Config.freeWord32 (n + 4), Config.freeWord32 (n + 5), Config.freeWord32 (n + 6), Config.freeWord32 (n + 7)⟩

/-- The RIPEMD256 core: its row of R8, little-endian block words, no byte swap (R69, R128). -/
def ripemd256Alg : Alg (Hash8 32) where
  bs := 64
  lfs := 8
  ds := 32
  nw := 8
  iv := ripemdIv
  zero := Hash8.zero 32
  absorb := fun H b => compressRipemd256 H (blockWords (leWord 32) b)
  finalSwap := fun H => H
  image := fun H => byteImage H.toList
  lengthField := ripemdLengthField
  drawHash := ripemdDraw

/-! ### The five commands (R169 to R173) -/

/-- RIPEMD256.INIT: load the initial value, or `BadPhase` (R169). -/
def execRipemd256Init (s : State) : Host.Outcome State Fault Refusal :=
  .next (s.putRipemd256 (initCommand ripemd256Alg s.viewRipemd256))

/-- RIPEMD256.CYCLE: absorb `a1` blocks from `a0` (R170). -/
def execRipemd256Cycle (a0 a1 : Word64) (s : State) : Host.Outcome State Fault Refusal :=
  .next (s.putRipemd256 (cycleCommand ripemd256Alg a0 a1 s.viewRipemd256))

/-- RIPEMD256.FINISH: pad the `a1` tail bytes at `a0` for a message of `a2` bytes, absorb, wipe, end (R171). -/
def execRipemd256Finish (a0 a1 a2 : Word64) (s : State) : Host.Outcome State Fault Refusal :=
  .next (s.putRipemd256 (finishCommand ripemd256Alg a0 a1 a2 s.viewRipemd256))

/-- RIPEMD256.DIGEST: answer the digest (R172). -/
def execRipemd256Digest (s : State) : Host.Outcome State Fault Refusal :=
  .next (s.putRipemd256 (digestCommand ripemd256Alg s.viewRipemd256))

/-- RIPEMD256.ERASE: zero the core (R173). -/
def execRipemd256Erase (s : State) : Host.Outcome State Fault Refusal :=
  .next (s.putRipemd256 (eraseCommand ripemd256Alg s.viewRipemd256))

end Sys2Proof.Machine
end

