-- ==== Sys2Proof/Machine/Sha1.lean ====
section
/-! DEFINITION. The SHA1 core and its five commands (`42_sha1.md`). -/

namespace Sys2Proof.Machine

/-- `IV_SHA1` (R191). -/
def sha1Iv : Hash5 32 :=
  ⟨0x67452301, 0xEFCDAB89, 0x98BADCFE, 0x10325476, 0xC3D2E1F0⟩

/-- One more word of the schedule: `W[j]` from the words before it (R192). -/
def sha1Extend (W : List Word32) : List Word32 :=
  let j := W.length
  W ++ [rotl (wordAt W (j - 3) ^^^ wordAt W (j - 8) ^^^ wordAt W (j - 14) ^^^ wordAt W (j - 16)) 1]

/-- The schedule with `n` words after the 16 block words (R192). -/
def sha1Schedule (X : List Word32) : Nat → List Word32
  | 0 => X
  | n + 1 => sha1Extend (sha1Schedule X n)

/-- `f_t(x, y, z)`: choice, parity, majority, parity (R193). -/
def sha1F (t : Nat) (x y z : Word32) : Word32 :=
  if t < 20 then (x &&& y) ||| (~~~x &&& z)
  else if t < 40 then x ^^^ y ^^^ z
  else if t < 60 then (x &&& y) ||| (x &&& z) ||| (y &&& z)
  else x ^^^ y ^^^ z

/-- `K1(t)` (R193). -/
def sha1K (t : Nat) : Word32 :=
  if t < 20 then 0x5A827999
  else if t < 40 then 0x6ED9EBA1
  else if t < 60 then 0x8F1BBCDC
  else 0xCA62C1D6

/-- Round `t`, all five registers from their old values (R194). -/
def sha1Round (W : List Word32) (v : Hash5 32) (t : Nat) : Hash5 32 :=
  match v with
  | ⟨a, b, c, d, e⟩ =>
    let T := rotl a 5 + sha1F t b c d + e + sha1K t + wordAt W t
    ⟨T, a, rotl b 30, c, d⟩

/-- The working registers after rounds `0 .. n-1`, seeded from the HashState (R194). -/
def sha1Rounds (H : Hash5 32) (X : List Word32) (n : Nat) : Hash5 32 :=
  (List.range n).foldl (sha1Round (sha1Schedule X 64)) H

/-- `Compress_SHA1(H, X)`: 80 rounds and the add-back (R194). -/
def compressSha1 (H : Hash5 32) (X : List Word32) : Hash5 32 :=
  H.add (sha1Rounds H X 80)

/-- The length field, `to_be_64((total * 8) mod 2^64)` (`40_sequencer.md` R127, `20_memory.md` R68). -/
def sha1LengthField (total : Word64) : List Byte := toBeBytes (bitLengthLow total)

/-- Five free words (assumption 3). -/
def sha1Draw (n : Nat) : Hash5 32 :=
  ⟨Config.freeWord32 n, Config.freeWord32 (n + 1), Config.freeWord32 (n + 2), Config.freeWord32 (n + 3),
    Config.freeWord32 (n + 4)⟩

/-- The SHA1 core: its row of R8, big-endian block words, byte swap of all five words (R128). -/
def sha1Alg : Alg (Hash5 32) where
  bs := 64
  lfs := 8
  ds := 20
  nw := 5
  iv := sha1Iv
  zero := Hash5.zero 32
  absorb := fun H b => compressSha1 H (blockWords (beWord 32) b)
  finalSwap := fun H => H.map bswap
  image := fun H => byteImage H.toList
  lengthField := sha1LengthField
  drawHash := sha1Draw

/-! ### The five commands (R196 to R200) -/

/-- SHA1.INIT: load the initial value, or `BadPhase` (R196). -/
def execSha1Init (s : State) : Host.Outcome State Fault Refusal :=
  .next (s.putSha1 (initCommand sha1Alg s.viewSha1))

/-- SHA1.CYCLE: absorb `a1` blocks from `a0` (R197). -/
def execSha1Cycle (a0 a1 : Word64) (s : State) : Host.Outcome State Fault Refusal :=
  .next (s.putSha1 (cycleCommand sha1Alg a0 a1 s.viewSha1))

/-- SHA1.FINISH: pad the `a1` tail bytes at `a0` for a message of `a2` bytes, absorb, wipe, end (R198). -/
def execSha1Finish (a0 a1 a2 : Word64) (s : State) : Host.Outcome State Fault Refusal :=
  .next (s.putSha1 (finishCommand sha1Alg a0 a1 a2 s.viewSha1))

/-- SHA1.DIGEST: answer the digest (R199). -/
def execSha1Digest (s : State) : Host.Outcome State Fault Refusal :=
  .next (s.putSha1 (digestCommand sha1Alg s.viewSha1))

/-- SHA1.ERASE: zero the core (R200). -/
def execSha1Erase (s : State) : Host.Outcome State Fault Refusal :=
  .next (s.putSha1 (eraseCommand sha1Alg s.viewSha1))

end Sys2Proof.Machine
end

