-- ==== Sys2Proof/Machine/Sha2.lean ====
section
/-! DEFINITION. What SHA256 and SHA384 share: the schedule recurrence, the round and the Boolean functions, over `w`-bit words (`43_sha256.md` R213 to R216; `44_sha384.md` R233 to R236, "Structurally identical"). -/

namespace Sys2Proof.Machine

/-- `ch(x, y, z)` (R213, R233). -/
def sha2Ch {w : Nat} (x y z : BitVec w) : BitVec w := (x &&& y) ^^^ (~~~x &&& z)

/-- `maj(x, y, z)` (R213, R233). -/
def sha2Maj {w : Nat} (x y z : BitVec w) : BitVec w := (x &&& y) ^^^ (x &&& z) ^^^ (y &&& z)

/-- The four sigma functions and the round constants of a core (R212, R213; R232, R233). -/
structure Sha2 (w : Nat) where
  ssig0 : BitVec w → BitVec w
  ssig1 : BitVec w → BitVec w
  bsig0 : BitVec w → BitVec w
  bsig1 : BitVec w → BitVec w
  k : List (BitVec w)

/-- One more word of the schedule: `W[t]` from the words before it (R214, R234). -/
def sha2Extend {w : Nat} (P : Sha2 w) (W : List (BitVec w)) : List (BitVec w) :=
  let t := W.length
  W ++ [P.ssig1 (wordAt W (t - 2)) + wordAt W (t - 7) + P.ssig0 (wordAt W (t - 15)) + wordAt W (t - 16)]

/-- The schedule with `n` words after the 16 block words (R214, R234). -/
def sha2Schedule {w : Nat} (P : Sha2 w) (X : List (BitVec w)) : Nat → List (BitVec w)
  | 0 => X
  | n + 1 => sha2Extend P (sha2Schedule P X n)

/-- Round `t`, all eight registers `a .. h` from their old values (R215, R235; one capital sigma of `e` in `T1`,
`90_conflicts.md` C6). -/
def sha2Round {w : Nat} (P : Sha2 w) (W : List (BitVec w)) (v : Hash8 w) (t : Nat) : Hash8 w :=
  match v with
  | ⟨a, b, c, d, e, f, g, h⟩ =>
    let T1 := h + P.bsig1 e + sha2Ch e f g + wordAt P.k t + wordAt W t
    let T2 := P.bsig0 a + sha2Maj a b c
    ⟨T1 + T2, a, b, c, d + T1, e, f, g⟩

/-- The working registers after rounds `0 .. n-1`, seeded from the HashState; the schedule has one word for each entry of
the constant table (R216, R236). -/
def sha2Rounds {w : Nat} (P : Sha2 w) (H : Hash8 w) (X : List (BitVec w)) (n : Nat) : Hash8 w :=
  (List.range n).foldl (sha2Round P (sha2Schedule P X (P.k.length - 16))) H

end Sys2Proof.Machine
end

