-- ==== Sys2Proof/Machine/Sha256.lean ====
section
/-! DEFINITION. The SHA256 core and its five commands (`43_sha256.md`). -/

namespace Sys2Proof.Machine

/-- `IV_SHA256` (R211). -/
def sha256Iv : Hash8 32 :=
  ⟨0x6A09E667, 0xBB67AE85, 0x3C6EF372, 0xA54FF53A, 0x510E527F, 0x9B05688C, 0x1F83D9AB, 0x5BE0CD19⟩

/-- The round constants (`K256`, R212). -/
def sha256K : List Word32 :=
  [0x428a2f98, 0x71374491, 0xb5c0fbcf, 0xe9b5dba5, 0x3956c25b, 0x59f111f1, 0x923f82a4, 0xab1c5ed5] ++
  [0xd807aa98, 0x12835b01, 0x243185be, 0x550c7dc3, 0x72be5d74, 0x80deb1fe, 0x9bdc06a7, 0xc19bf174] ++
  [0xe49b69c1, 0xefbe4786, 0x0fc19dc6, 0x240ca1cc, 0x2de92c6f, 0x4a7484aa, 0x5cb0a9dc, 0x76f988da] ++
  [0x983e5152, 0xa831c66d, 0xb00327c8, 0xbf597fc7, 0xc6e00bf3, 0xd5a79147, 0x06ca6351, 0x14292967] ++
  [0x27b70a85, 0x2e1b2138, 0x4d2c6dfc, 0x53380d13, 0x650a7354, 0x766a0abb, 0x81c2c92e, 0x92722c85] ++
  [0xa2bfe8a1, 0xa81a664b, 0xc24b8b70, 0xc76c51a3, 0xd192e819, 0xd6990624, 0xf40e3585, 0x106aa070] ++
  [0x19a4c116, 0x1e376c08, 0x2748774c, 0x34b0bcb5, 0x391c0cb3, 0x4ed8aa4a, 0x5b9cca4f, 0x682e6ff3] ++
  [0x748f82ee, 0x78a5636f, 0x84c87814, 0x8cc70208, 0x90befffa, 0xa4506ceb, 0xbef9a3f7, 0xc67178f2]

/-- `ssig0`, of the 15-back schedule entry (R213). -/
def sha256Ssig0 (x : Word32) : Word32 := rotr x 7 ^^^ rotr x 18 ^^^ (x >>> 3)

/-- `ssig1`, of the 2-back schedule entry (R213). -/
def sha256Ssig1 (x : Word32) : Word32 := rotr x 17 ^^^ rotr x 19 ^^^ (x >>> 10)

/-- `bsig0`, of `a` (R213). -/
def sha256Bsig0 (x : Word32) : Word32 := rotr x 2 ^^^ rotr x 13 ^^^ rotr x 22

/-- `bsig1`, of `e` (R213). -/
def sha256Bsig1 (x : Word32) : Word32 := rotr x 6 ^^^ rotr x 11 ^^^ rotr x 25

/-- The functions and constants of SHA256 (R212, R213). -/
def sha256Params : Sha2 32 where
  ssig0 := sha256Ssig0
  ssig1 := sha256Ssig1
  bsig0 := sha256Bsig0
  bsig1 := sha256Bsig1
  k := sha256K

/-- `Compress_SHA256(H, X)`: 64 rounds and the add-back (R216). -/
def compressSha256 (H : Hash8 32) (X : List Word32) : Hash8 32 :=
  H.add (sha2Rounds sha256Params H X 64)

/-- The length field, `to_be_64((total * 8) mod 2^64)` (`40_sequencer.md` R127, `20_memory.md` R68). -/
def sha256LengthField (total : Word64) : List Byte := toBeBytes (bitLengthLow total)

/-- Eight free words (assumption 3). -/
def sha256Draw (n : Nat) : Hash8 32 :=
  ⟨Config.freeWord32 n, Config.freeWord32 (n + 1), Config.freeWord32 (n + 2), Config.freeWord32 (n + 3),
    Config.freeWord32 (n + 4), Config.freeWord32 (n + 5), Config.freeWord32 (n + 6), Config.freeWord32 (n + 7)⟩

/-- The SHA256 core: its row of R8, big-endian block words, byte swap of all eight words (R128). -/
def sha256Alg : Alg (Hash8 32) where
  bs := 64
  lfs := 8
  ds := 32
  nw := 8
  iv := sha256Iv
  zero := Hash8.zero 32
  absorb := fun H b => compressSha256 H (blockWords (beWord 32) b)
  finalSwap := fun H => H.map bswap
  image := fun H => byteImage H.toList
  lengthField := sha256LengthField
  drawHash := sha256Draw

/-! ### The five commands (R218 to R222) -/

/-- SHA256.INIT: load the initial value, or `BadPhase` (R218). -/
def execSha256Init (s : State) : Host.Outcome State Fault Refusal :=
  .next (s.putSha256 (initCommand sha256Alg s.viewSha256))

/-- SHA256.CYCLE: absorb `a1` blocks from `a0` (R219). -/
def execSha256Cycle (a0 a1 : Word64) (s : State) : Host.Outcome State Fault Refusal :=
  .next (s.putSha256 (cycleCommand sha256Alg a0 a1 s.viewSha256))

/-- SHA256.FINISH: pad the `a1` tail bytes at `a0` for a message of `a2` bytes, absorb, wipe, end (R220). -/
def execSha256Finish (a0 a1 a2 : Word64) (s : State) : Host.Outcome State Fault Refusal :=
  .next (s.putSha256 (finishCommand sha256Alg a0 a1 a2 s.viewSha256))

/-- SHA256.DIGEST: answer the digest (R221). -/
def execSha256Digest (s : State) : Host.Outcome State Fault Refusal :=
  .next (s.putSha256 (digestCommand sha256Alg s.viewSha256))

/-- SHA256.ERASE: zero the core (R222). -/
def execSha256Erase (s : State) : Host.Outcome State Fault Refusal :=
  .next (s.putSha256 (eraseCommand sha256Alg s.viewSha256))

end Sys2Proof.Machine
end

