-- ==== Sys2Proof/Machine/Sha384.lean ====
section
/-! DEFINITION. The SHA384 core and its five commands (`44_sha384.md`). -/

namespace Sys2Proof.Machine

/-- `IV_SHA384` (R231). -/
def sha384Iv : Hash8 64 :=
  ⟨0xCBBB9D5DC1059ED8, 0x629A292A367CD507, 0x9159015A3070DD17, 0x152FECD8F70E5939,
    0x67332667FFC00B31, 0x8EB44A8768581511, 0xDB0C2E0D64F98FA7, 0x47B5481DBEFA4FA4⟩

/-- The round constants (`K512`, R232). -/
def sha384K : List Word64 :=
  [0x428a2f98d728ae22, 0x7137449123ef65cd, 0xb5c0fbcfec4d3b2f, 0xe9b5dba58189dbbc] ++
  [0x3956c25bf348b538, 0x59f111f1b605d019, 0x923f82a4af194f9b, 0xab1c5ed5da6d8118] ++
  [0xd807aa98a3030242, 0x12835b0145706fbe, 0x243185be4ee4b28c, 0x550c7dc3d5ffb4e2] ++
  [0x72be5d74f27b896f, 0x80deb1fe3b1696b1, 0x9bdc06a725c71235, 0xc19bf174cf692694] ++
  [0xe49b69c19ef14ad2, 0xefbe4786384f25e3, 0x0fc19dc68b8cd5b5, 0x240ca1cc77ac9c65] ++
  [0x2de92c6f592b0275, 0x4a7484aa6ea6e483, 0x5cb0a9dcbd41fbd4, 0x76f988da831153b5] ++
  [0x983e5152ee66dfab, 0xa831c66d2db43210, 0xb00327c898fb213f, 0xbf597fc7beef0ee4] ++
  [0xc6e00bf33da88fc2, 0xd5a79147930aa725, 0x06ca6351e003826f, 0x142929670a0e6e70] ++
  [0x27b70a8546d22ffc, 0x2e1b21385c26c926, 0x4d2c6dfc5ac42aed, 0x53380d139d95b3df] ++
  [0x650a73548baf63de, 0x766a0abb3c77b2a8, 0x81c2c92e47edaee6, 0x92722c851482353b] ++
  [0xa2bfe8a14cf10364, 0xa81a664bbc423001, 0xc24b8b70d0f89791, 0xc76c51a30654be30] ++
  [0xd192e819d6ef5218, 0xd69906245565a910, 0xf40e35855771202a, 0x106aa07032bbd1b8] ++
  [0x19a4c116b8d2d0c8, 0x1e376c085141ab53, 0x2748774cdf8eeb99, 0x34b0bcb5e19b48a8] ++
  [0x391c0cb3c5c95a63, 0x4ed8aa4ae3418acb, 0x5b9cca4f7763e373, 0x682e6ff3d6b2b8a3] ++
  [0x748f82ee5defb2fc, 0x78a5636f43172f60, 0x84c87814a1f0ab72, 0x8cc702081a6439ec] ++
  [0x90befffa23631e28, 0xa4506cebde82bde9, 0xbef9a3f7b2c67915, 0xc67178f2e372532b] ++
  [0xca273eceea26619c, 0xd186b8c721c0c207, 0xeada7dd6cde0eb1e, 0xf57d4f7fee6ed178] ++
  [0x06f067aa72176fba, 0x0a637dc5a2c898a6, 0x113f9804bef90dae, 0x1b710b35131c471b] ++
  [0x28db77f523047d84, 0x32caab7b40c72493, 0x3c9ebe0a15c9bebc, 0x431d67c49c100d4c] ++
  [0x4cc5d4becb3e42b6, 0x597f299cfc657e2a, 0x5fcb6fab3ad6faec, 0x6c44198c4a475817]

/-- `ssig0`, of the 15-back schedule entry (R233). -/
def sha384Ssig0 (x : Word64) : Word64 := rotr x 1 ^^^ rotr x 8 ^^^ (x >>> 7)

/-- `ssig1`, of the 2-back schedule entry (R233). -/
def sha384Ssig1 (x : Word64) : Word64 := rotr x 19 ^^^ rotr x 61 ^^^ (x >>> 6)

/-- `bsig0`, of `a` (R233). -/
def sha384Bsig0 (x : Word64) : Word64 := rotr x 28 ^^^ rotr x 34 ^^^ rotr x 39

/-- `bsig1`, of `e` (R233). -/
def sha384Bsig1 (x : Word64) : Word64 := rotr x 14 ^^^ rotr x 18 ^^^ rotr x 41

/-- The functions and constants of SHA384 (R232, R233). -/
def sha384Params : Sha2 64 where
  ssig0 := sha384Ssig0
  ssig1 := sha384Ssig1
  bsig0 := sha384Bsig0
  bsig1 := sha384Bsig1
  k := sha384K

/-- `Compress_SHA384(H, X)`: 80 rounds and the add-back (R236). -/
def compressSha384 (H : Hash8 64) (X : List Word64) : Hash8 64 :=
  H.add (sha2Rounds sha384Params H X 80)

/-- The length field, `to_be_64(shr(total, 61)) ++ to_be_64((total * 8) mod 2^64)` (`40_sequencer.md` R127,
`20_memory.md` R68). -/
def sha384LengthField (total : Word64) : List Byte :=
  toBeBytes (bitLengthHigh total) ++ toBeBytes (bitLengthLow total)

/-- Eight free words (assumption 3). -/
def sha384Draw (n : Nat) : Hash8 64 :=
  ⟨Config.freeWord64 n, Config.freeWord64 (n + 1), Config.freeWord64 (n + 2), Config.freeWord64 (n + 3),
    Config.freeWord64 (n + 4), Config.freeWord64 (n + 5), Config.freeWord64 (n + 6), Config.freeWord64 (n + 7)⟩

/-- The SHA384 core: its row of R8, big-endian block words, byte swap of all eight words (R128); six of eight words in the digest (R230, R241). -/
def sha384Alg : Alg (Hash8 64) where
  bs := 128
  lfs := 16
  ds := 48
  nw := 8
  iv := sha384Iv
  zero := Hash8.zero 64
  absorb := fun H b => compressSha384 H (blockWords (beWord 64) b)
  finalSwap := fun H => H.map bswap
  image := fun H => byteImage H.toList
  lengthField := sha384LengthField
  drawHash := sha384Draw

/-! ### The five commands (R238 to R242) -/

/-- SHA384.INIT: load the initial value, or `BadPhase` (R238). -/
def execSha384Init (s : State) : Host.Outcome State Fault Refusal :=
  .next (s.putSha384 (initCommand sha384Alg s.viewSha384))

/-- SHA384.CYCLE: absorb `a1` blocks from `a0` (R239). -/
def execSha384Cycle (a0 a1 : Word64) (s : State) : Host.Outcome State Fault Refusal :=
  .next (s.putSha384 (cycleCommand sha384Alg a0 a1 s.viewSha384))

/-- SHA384.FINISH: pad the `a1` tail bytes at `a0` for a message of `a2` bytes, absorb, wipe, end (R240). -/
def execSha384Finish (a0 a1 a2 : Word64) (s : State) : Host.Outcome State Fault Refusal :=
  .next (s.putSha384 (finishCommand sha384Alg a0 a1 a2 s.viewSha384))

/-- SHA384.DIGEST: answer the digest (R241). -/
def execSha384Digest (s : State) : Host.Outcome State Fault Refusal :=
  .next (s.putSha384 (digestCommand sha384Alg s.viewSha384))

/-- SHA384.ERASE: zero the core (R242). -/
def execSha384Erase (s : State) : Host.Outcome State Fault Refusal :=
  .next (s.putSha384 (eraseCommand sha384Alg s.viewSha384))

end Sys2Proof.Machine
end

