-- ==== Sys2Proof/Machine/Dispatch.lean ====
section
/-! DEFINITION. One arm per command: `execute` of `40_sequencer.md` R120 for a decoded command. -/

namespace Sys2Proof.Machine

def exec (i : Instr) (s : State) : Host.Outcome State Fault Refusal :=
  match i with
  | .ripemd256Init => Sys2Proof.Machine.execRipemd256Init s
  | .ripemd256Cycle a0 a1 => Sys2Proof.Machine.execRipemd256Cycle a0 a1 s
  | .ripemd256Finish a0 a1 a2 => Sys2Proof.Machine.execRipemd256Finish a0 a1 a2 s
  | .ripemd256Digest => Sys2Proof.Machine.execRipemd256Digest s
  | .ripemd256Erase => Sys2Proof.Machine.execRipemd256Erase s
  | .sha1Init => Sys2Proof.Machine.execSha1Init s
  | .sha1Cycle a0 a1 => Sys2Proof.Machine.execSha1Cycle a0 a1 s
  | .sha1Finish a0 a1 a2 => Sys2Proof.Machine.execSha1Finish a0 a1 a2 s
  | .sha1Digest => Sys2Proof.Machine.execSha1Digest s
  | .sha1Erase => Sys2Proof.Machine.execSha1Erase s
  | .sha256Init => Sys2Proof.Machine.execSha256Init s
  | .sha256Cycle a0 a1 => Sys2Proof.Machine.execSha256Cycle a0 a1 s
  | .sha256Finish a0 a1 a2 => Sys2Proof.Machine.execSha256Finish a0 a1 a2 s
  | .sha256Digest => Sys2Proof.Machine.execSha256Digest s
  | .sha256Erase => Sys2Proof.Machine.execSha256Erase s
  | .sha384Init => Sys2Proof.Machine.execSha384Init s
  | .sha384Cycle a0 a1 => Sys2Proof.Machine.execSha384Cycle a0 a1 s
  | .sha384Finish a0 a1 a2 => Sys2Proof.Machine.execSha384Finish a0 a1 a2 s
  | .sha384Digest => Sys2Proof.Machine.execSha384Digest s
  | .sha384Erase => Sys2Proof.Machine.execSha384Erase s

end Sys2Proof.Machine
end

