-- ==== Sys2Proof/Machine/Port.lean ====
section
/-! DEFINITION. The command port: how a presented command is accepted (`40_sequencer.md` R120, `10_state.md` R27 to R29), and
what each input of the host does when it lands. There is no program counter and nothing is fetched (R37, `20_memory.md`
R81): the next instruction is the next command of the inbox. -/

namespace Sys2Proof.Machine

/-- The block samples the port, decodes the command word and executes the command; an undecodable word is answered and
changes nothing else (R120). -/
def acceptCommand (s : State) : Host.Outcome State Fault Refusal :=
  match decode s.port with
  | .error _ => .next s.illegalCommand
  | .ok i => exec i s

/-- The running command is abandoned by reset: no response, no effect, the reset state (`70_reset_and_hazards.md` R300,
U17). -/
def abandonCommand (s : State) : State := s.resetBlock

/-- What the input `x` does in the state `s`, from which it has been taken (assumption 4). -/
def landInput (x : HostInput) (s : State) : Host.Outcome State Fault Refusal :=
  match x with
  | .present c => acceptCommand (s.setPort c)
  | .presentRaced c ws => leaveRace s.mem ws (acceptCommand ((s.enterRace ws).setPort c))
  | .presentChanged _ _ => .refused .portChangedBeforeAcceptance
  | .write a b => .next (s.setMem (s.mem.write a.toNat b))
  | .setReadable ranges => .next (s.setMem (s.mem.setReadable ranges))
  | .reset => .next s.resetBlock
  | .presentReset c => .next (abandonCommand (s.setPort c))

/-- The next input lands; with none waiting the block is idle and holds its state (`60_exceptions.md` R278,
`70_reset_and_hazards.md` R301). -/
def takeInput (s : State) : Host.Outcome State Fault Refusal :=
  match s.inbox with
  | [] => .next s
  | x :: rest => landInput x (s.setInbox rest)

end Sys2Proof.Machine
end

