-- ==== Sys2Proof/Machine/Step.lean ====
section
/-! DEFINITION. One step of the machine: one input of the host, and with it one whole command from acceptance to response
where the input presents one (`00_scope.md` R11: "one step per command"). -/

namespace Sys2Proof.Machine

/-- One step. -/
def step (s : State) : Host.Outcome State Fault Refusal := takeInput s

/-- `s` with the command whose bits are `w` (numbered as the opcode table numbers them, every bit above `nbits` zero)
presented before every waiting input: the next step accepts and runs exactly it (assumption 4). -/
def State.withFetchWord (s : State) (nbits w : Nat) : State :=
  s.setInbox (.present (tableCommand nbits w) :: s.inbox)

end Sys2Proof.Machine
end

