-- ==== Sys2Proof/Machine/Streaming.lean ====
section
/-! DEFINITION. The host's side: the Streaming Engine and the pseudo-instructions (`46_streaming_engine.md`, `30_encoding.md`
R101). It is not inside the block (`00_scope.md` R6): these are lists of commands and of host inputs, and no step of the
machine calls them. -/

namespace Sys2Proof.Machine

/-- `BS` of a core, by its name (`00_scope.md` R8). -/
def blockBytes : CoreId → Nat
  | .ripemd256 => ripemd256Alg.bs
  | .sha1 => sha1Alg.bs
  | .sha256 => sha256Alg.bs
  | .sha384 => sha384Alg.bs

/-- `c.HASH ptr, len` (R261): the five commands it expands to.

DESIGN CHOICE (assumption 11): FINISH's operand `ptr + q*BS` is taken modulo `2^64`. The spec's sum is unbounded (R12) and
gives the 64-bit `A0` no value where it reaches `2^64`; 0 is issued there. With no tail byte left FINISH ignores `A0`
(`20_memory.md` R80); with tail bytes left (`ptr + len > 2^64`, outside R261's preconditions) FINISH reads them from 0. -/
def hashCommands (c : CoreId) (ptr len : Word64) : List Instr :=
  let q := len.toNat / blockBytes c
  let s := len.toNat % blockBytes c
  [instrOf c .init 0 0 0, instrOf c .cycle ptr (BitVec.ofNat 64 q) 0,
    instrOf c .finish (ptr + BitVec.ofNat 64 (q * blockBytes c)) (BitVec.ofNat 64 s) len,
    instrOf c .digest 0 0 0, instrOf c .erase 0 0 0]

/-- What the host keeps for one computation: the core, the address `bufp` of its block buffer, how many bytes of the buffer
are filled, and the byte counter (R262).

DESIGN CHOICE (assumption 11): `total` is a 64-bit word, as the operand it becomes (R264), and wraps modulo `2^64`; R262
states no width. -/
structure Stream where
  core : CoreId
  bufp : Word64
  fill : Nat
  total : Word64
  deriving DecidableEq, Repr

/-- A stream with data still to hand over (`bytes`, which stand at the address `data`) and the inputs made so far. -/
structure Feed where
  stream : Stream
  data : Word64
  bytes : List Byte
  inputs : List HostInput
  deriving DecidableEq, Repr

/-- The host issues a command. -/
def issue (i : Instr) : HostInput := .present (encode i)

/-- The host copies bytes to the address `a`, its address counted modulo `2^64` (assumption 11). -/
def copyTo : Word64 → List Byte → List HostInput
  | _, [] => []
  | a, b :: bs => .write a b :: copyTo (a + 1) bs

/-- `start(c)` (R262). -/
def Stream.start (c : CoreId) (bufp : Word64) : Stream × List HostInput :=
  (⟨c, bufp, 0, 0⟩, [issue (instrOf c .init 0 0 0)])

/-- The first part of UPDATE: a buffer that holds something is filled up, and absorbed when it is full (R262). -/
def Feed.topUp (f : Feed) : Feed :=
  if f.stream.fill = 0 then f
  else
    let take := min f.bytes.length (blockBytes f.stream.core - f.stream.fill)
    let copied := copyTo (f.stream.bufp + BitVec.ofNat 64 f.stream.fill) (f.bytes.take take)
    if f.stream.fill + take = blockBytes f.stream.core then
      { stream := { f.stream with fill := 0 }
        data := f.data + BitVec.ofNat 64 take
        bytes := f.bytes.drop take
        inputs := f.inputs ++ copied ++ [issue (instrOf f.stream.core .cycle f.stream.bufp 1 0)] }
    else
      { stream := { f.stream with fill := f.stream.fill + take }
        data := f.data + BitVec.ofNat 64 take
        bytes := f.bytes.drop take
        inputs := f.inputs ++ copied }

/-- The second part: the whole blocks go to CYCLE where they stand (R262). -/
def Feed.wholeBlocks (f : Feed) : Feed :=
  if f.bytes.length < blockBytes f.stream.core then f
  else
    let n := f.bytes.length / blockBytes f.stream.core
    { stream := f.stream
      data := f.data + BitVec.ofNat 64 (n * blockBytes f.stream.core)
      bytes := f.bytes.drop (n * blockBytes f.stream.core)
      inputs := f.inputs ++ [issue (instrOf f.stream.core .cycle f.data (BitVec.ofNat 64 n) 0)] }

/-- The third part: what is left goes into the buffer (R262). -/
def Feed.buffer (f : Feed) : Feed :=
  if f.bytes = [] then f
  else
    { stream := { f.stream with fill := f.bytes.length }
      data := f.data
      bytes := []
      inputs := f.inputs ++ copyTo f.stream.bufp f.bytes }

/-- `c.UPDATE(data, len)` for the bytes `bytes` at the address `data` (R262).

DESIGN CHOICE (assumption 11): `total + len` and the address sums (`data` and `bufp` with a byte count, here and in the three
parts above) are taken modulo `2^64`; the spec's sums are unbounded (R12). -/
def Stream.update (s : Stream) (data : Word64) (bytes : List Byte) : Stream × List HostInput :=
  let f := Feed.buffer (Feed.wholeBlocks (Feed.topUp
    ⟨{ s with total := s.total + BitVec.ofNat 64 bytes.length }, data, bytes, []⟩))
  (f.stream, f.inputs)

/-- `c.FINAL()`, with the wipe of the host's own buffer (R262). -/
def Stream.final (s : Stream) : List HostInput :=
  [issue (instrOf s.core .finish s.bufp (BitVec.ofNat 64 s.fill) s.total), issue (instrOf s.core .digest 0 0 0),
    issue (instrOf s.core .erase 0 0 0)] ++
  copyTo s.bufp (List.replicate (blockBytes s.core) 0)

end Sys2Proof.Machine
end

