-- ==== Sys2Proof/Safety.lean ====
section
/-! DEFINITION. The terms claims are made in: the invariant of the machine, a core's registers by its name, what a command
leaves alone, which bytes a command names, and runs of commands. -/

namespace Sys2Proof.Machine

/-! ### The invariant -/

/-- What holds of one core between commands: the fault code is 0 unless the core is FAULTED (`10_state.md` R26), and then
one of 2 to 5 (`60_exceptions.md` R270, R273: `IllegalCommand` is never latched); an IDLE core holds zeros
(`10_state.md` R40, `45_eraser.md` R252). -/
structure CoreInv {α : Type} (zero : α) (k : CoreRegs α) : Prop where
  faulted_iff_code : k.phase = .faulted ↔ k.fcode ≠ 0
  code_range : k.fcode = 0 ∨ (2 ≤ k.fcode.toNat ∧ k.fcode.toNat ≤ 5)
  idle_zero : k.phase = .idle → k.h = zero

/-- What holds of the machine between commands: message memory is in canonical form, `EPI` is all zero (`10_state.md` R32),
`RDATA` is 48 bytes (R28), `RC` is one of 0 to 5 (`60_exceptions.md` R270), data comes only with an OK response
(`30_encoding.md` R95), and every core meets `CoreInv`. -/
structure State.Inv (s : State) : Prop where
  mem_wf : s.mem.wf = true
  epi_zero : s.epi = List.replicate 256 0
  rdata_length : s.rdata.length = 48
  rc_range : s.rc.toNat ≤ 5
  fault_without_data : s.rc ≠ 0 → s.rdata = List.replicate 48 0
  ripemd256_inv : CoreInv (Hash8.zero 32) s.ripemd256
  sha1_inv : CoreInv (Hash5.zero 32) s.sha1
  sha256_inv : CoreInv (Hash8.zero 32) s.sha256
  sha384_inv : CoreInv (Hash8.zero 64) s.sha384

/-! ### A core by its name -/

/-- `phase[c]`. -/
def State.phaseOf (s : State) : CoreId → Phase
  | .ripemd256 => s.ripemd256.phase
  | .sha1 => s.sha1.phase
  | .sha256 => s.sha256.phase
  | .sha384 => s.sha384.phase

/-- `fcode[c]`. -/
def State.fcodeOf (s : State) : CoreId → BitVec 3
  | .ripemd256 => s.ripemd256.fcode
  | .sha1 => s.sha1.fcode
  | .sha256 => s.sha256.fcode
  | .sha384 => s.sha384.fcode

/-- `H[c]` is the same in both states. -/
def SameHash (c : CoreId) (s t : State) : Prop :=
  match c with
  | .ripemd256 => t.ripemd256.h = s.ripemd256.h
  | .sha1 => t.sha1.h = s.sha1.h
  | .sha256 => t.sha256.h = s.sha256.h
  | .sha384 => t.sha384.h = s.sha384.h

/-- `H[c]`, `phase[c]` and `fcode[c]` are the same in both states. -/
def SameCore (c : CoreId) (s t : State) : Prop :=
  match c with
  | .ripemd256 => t.ripemd256 = s.ripemd256
  | .sha1 => t.sha1 = s.sha1
  | .sha256 => t.sha256 = s.sha256
  | .sha384 => t.sha384 = s.sha384

/-- Core `c` is as ERASE and reset leave it: every word zero, IDLE, fault code 0. -/
def ClearedCore (c : CoreId) (s : State) : Prop :=
  match c with
  | .ripemd256 => s.ripemd256 = ⟨⟨0, 0, 0, 0, 0, 0, 0, 0⟩, .idle, 0⟩
  | .sha1 => s.sha1 = ⟨⟨0, 0, 0, 0, 0⟩, .idle, 0⟩
  | .sha256 => s.sha256 = ⟨⟨0, 0, 0, 0, 0, 0, 0, 0⟩, .idle, 0⟩
  | .sha384 => s.sha384 = ⟨⟨0, 0, 0, 0, 0, 0, 0, 0⟩, .idle, 0⟩

/-- The state with `fcode[c]` replaced by `f`. -/
def State.withFcode (s : State) (c : CoreId) (f : BitVec 3) : State :=
  match c with
  | .ripemd256 => { s with ripemd256 := { s.ripemd256 with fcode := f } }
  | .sha1 => { s with sha1 := { s.sha1 with fcode := f } }
  | .sha256 => { s with sha256 := { s.sha256 with fcode := f } }
  | .sha384 => { s with sha384 := { s.sha384 with fcode := f } }

/-- An instance of core `c` exists and has not faulted: ACTIVE or FINAL. -/
def State.live (s : State) (c : CoreId) : Prop :=
  s.phaseOf c = .active ∨ s.phaseOf c = .final

/-- `BS` in bytes (`00_scope.md` R8). -/
def blockSizeOf : CoreId → Nat
  | .ripemd256 => 64
  | .sha1 => 64
  | .sha256 => 64
  | .sha384 => 128

/-- `TMAX = 2*BS - LFS - 1` (R8). -/
def tailLimitOf : CoreId → Nat
  | .ripemd256 => 119
  | .sha1 => 119
  | .sha256 => 119
  | .sha384 => 239

/-! ### Frames -/

/-- The command port, the waiting inputs, every byte of message memory and `Readable` are the same in both states. -/
def SameHostSide (s t : State) : Prop :=
  t.cw = s.cw ∧ t.a0 = s.a0 ∧ t.a1 = s.a1 ∧ t.a2 = s.a2 ∧ t.inbox = s.inbox ∧
    ∀ a, t.mem.byte a = s.mem.byte a ∧ t.mem.readable a = s.mem.readable a

/-- The bytes of message memory a command names: first address and how many (`20_memory.md` R79). -/
def namedRange (c : CoreId) (op : Operation) (a0 a1 : Word64) : Nat × Nat :=
  match op with
  | .cycle => (a0.toNat, a1.toNat * blockSizeOf c)
  | .finish => (a0.toNat, a1.toNat)
  | .init => (0, 0)
  | .digest => (0, 0)
  | .erase => (0, 0)

/-- The bytes of message memory from `addr` on are readable and are `bytes`. -/
def MemHolds (m : Memory) (addr : Nat) (bytes : List Byte) : Prop :=
  ∀ j, j < bytes.length → m.read (addr + j) = bytes[j]?

/-- Some byte of the range is not readable. -/
def SomeUnreadable (m : Memory) (addr n : Nat) : Prop :=
  ∃ j, j < n ∧ m.readable (addr + j) = false

/-! ### Chaining -/

/-- The value after `n` blocks of `bs` bytes of `bytes` have been absorbed in order (`10_state.md` R22). -/
def chainBlocks {α : Type} (absorb : α → List Byte → α) (bs n : Nat) (bytes : List Byte) (h : α) : α :=
  (List.range n).foldl (fun h k => absorb h ((bytes.drop (k * bs)).take bs)) h

/-- `Compress_RIPEMD256` of a block's 16 little-endian words (`20_memory.md` R66). -/
def absorbRipemd256 (h : Hash8 32) (b : List Byte) : Hash8 32 :=
  compressRipemd256 h ((List.range 16).map fun i => leWord 32 ((b.drop (i * 4)).take 4))

/-- `Compress_SHA1` of a block's 16 big-endian words (R66). -/
def absorbSha1 (h : Hash5 32) (b : List Byte) : Hash5 32 :=
  compressSha1 h ((List.range 16).map fun i => beWord 32 ((b.drop (i * 4)).take 4))

/-- `Compress_SHA256` of a block's 16 big-endian words (R66). -/
def absorbSha256 (h : Hash8 32) (b : List Byte) : Hash8 32 :=
  compressSha256 h ((List.range 16).map fun i => beWord 32 ((b.drop (i * 4)).take 4))

/-- `Compress_SHA384` of a block's 16 big-endian words of 64 bits (R66). -/
def absorbSha384 (h : Hash8 64) (b : List Byte) : Hash8 64 :=
  compressSha384 h ((List.range 16).map fun i => beWord 64 ((b.drop (i * 8)).take 8))

/-- The padded tail: the tail, the marker, zeros, the length field, `L` bytes in all (`40_sequencer.md` R125). -/
def paddedTail (L : Nat) (tail lengthField : List Byte) : List Byte :=
  tail ++ [0x80] ++ List.replicate (L - lengthField.length - tail.length - 1) 0 ++ lengthField

/-! ### Constants -/

/-- `x` is the first `w` bits of the fractional part of the `k`-th root of `p`: some `n` below 8 is the root's whole part. -/
abbrev RootFraction (k w p x : Nat) : Prop :=
  ∃ n ∈ List.range 8, (n * 2 ^ w + x) ^ k ≤ p * 2 ^ (k * w) ∧ p * 2 ^ (k * w) < (n * 2 ^ w + x + 1) ^ k

/-- The padded message "abc" of a 64-byte core with a big-endian length field (`42_sha1.md` R195, `43_sha256.md` R217). -/
def abcBlock32 : List Byte := [0x61, 0x62, 0x63, 0x80] ++ List.replicate 59 0 ++ [0x18]

/-- The padded message "abc" of the SHA384 core (`44_sha384.md` R237). -/
def abcBlock64 : List Byte := [0x61, 0x62, 0x63, 0x80] ++ List.replicate 123 0 ++ [0x18]

/-- The first 80 primes, 2 to 409. -/
def firstPrimes : List Nat :=
  [2, 3, 5, 7, 11, 13, 17, 19, 23, 29, 31, 37, 41, 43, 47, 53, 59, 61, 67, 71] ++
  [73, 79, 83, 89, 97, 101, 103, 107, 109, 113, 127, 131, 137, 139, 149, 151, 157, 163, 167, 173] ++
  [179, 181, 191, 193, 197, 199, 211, 223, 227, 229, 233, 239, 241, 251, 257, 263, 269, 271, 277, 281] ++
  [283, 293, 307, 311, 313, 317, 331, 337, 347, 349, 353, 359, 367, 373, 379, 383, 389, 397, 401, 409]

/-! ### Runs of commands -/

/-- The commands executed one after another; nothing where one stops. -/
def execAll : List Instr → State → Option State
  | [], s => some s
  | i :: is, s =>
    match exec i s with
    | .next t => execAll is t
    | .fault _ => none
    | .refused _ => none

end Sys2Proof.Machine
end

