-- ==== Sys2Proof/Certificates/Slice0/Obligations.lean ====
section
/-! DEFINITION. The statements for the provers. Each says what the spec's rules say of the machine; the vocabulary is that of
`Sys2Proof/Safety.lean`. -/

open Sys2Proof Sys2Proof.Machine

/-- Words written out from the opcode map and the decoding vectors. -/
def Obligations.DecodeSampleWords : Prop :=
  decode ⟨0x00000010, 0, 0, 0⟩ = .ok .ripemd256Init ∧
  decode ⟨0x00000053, 0, 0, 0⟩ = .ok .sha384Erase ∧
  decode ⟨0x00000032, 0x1000, 3, 3⟩ = .ok (.sha256Finish 0x1000 3 3) ∧
  decode ⟨0x00000021, 0x2000, 1, 0⟩ = .ok (.sha1Cycle 0x2000 1) ∧
  decode ⟨0x00000040, 0, 0, 0⟩ = .ok .ripemd256Digest ∧
  decode ⟨0x00000000, 0, 0, 0⟩ = .error .reservedOperation ∧
  decode ⟨0x00000060, 0, 0, 0⟩ = .error .reservedOperation ∧
  decode ⟨0x000000f2, 0, 0, 0⟩ = .error .reservedOperation ∧
  decode ⟨0x00000014, 0, 0, 0⟩ = .error .lowReservedSet ∧
  decode ⟨0x00000112, 0, 0, 0⟩ = .error .highReservedSet ∧
  decode ⟨0x80000022, 0, 0, 0⟩ = .error .highReservedSet ∧
  decode ⟨0xffffffff, 0, 0, 0⟩ = .error .highReservedSet

/-- R102 and R103: the opcode map row by row, and no other word. -/
def Obligations.DecodeIsTheOpcodeMap : Prop :=
  (∀ a0 a1 a2 : Word64,
    decode ⟨0x00000010, a0, a1, a2⟩ = .ok .ripemd256Init ∧
    decode ⟨0x00000020, a0, a1, a2⟩ = .ok (.ripemd256Cycle a0 a1) ∧
    decode ⟨0x00000030, a0, a1, a2⟩ = .ok (.ripemd256Finish a0 a1 a2) ∧
    decode ⟨0x00000040, a0, a1, a2⟩ = .ok .ripemd256Digest ∧
    decode ⟨0x00000050, a0, a1, a2⟩ = .ok .ripemd256Erase ∧
    decode ⟨0x00000011, a0, a1, a2⟩ = .ok .sha1Init ∧
    decode ⟨0x00000021, a0, a1, a2⟩ = .ok (.sha1Cycle a0 a1) ∧
    decode ⟨0x00000031, a0, a1, a2⟩ = .ok (.sha1Finish a0 a1 a2) ∧
    decode ⟨0x00000041, a0, a1, a2⟩ = .ok .sha1Digest ∧
    decode ⟨0x00000051, a0, a1, a2⟩ = .ok .sha1Erase ∧
    decode ⟨0x00000012, a0, a1, a2⟩ = .ok .sha256Init ∧
    decode ⟨0x00000022, a0, a1, a2⟩ = .ok (.sha256Cycle a0 a1) ∧
    decode ⟨0x00000032, a0, a1, a2⟩ = .ok (.sha256Finish a0 a1 a2) ∧
    decode ⟨0x00000042, a0, a1, a2⟩ = .ok .sha256Digest ∧
    decode ⟨0x00000052, a0, a1, a2⟩ = .ok .sha256Erase ∧
    decode ⟨0x00000013, a0, a1, a2⟩ = .ok .sha384Init ∧
    decode ⟨0x00000023, a0, a1, a2⟩ = .ok (.sha384Cycle a0 a1) ∧
    decode ⟨0x00000033, a0, a1, a2⟩ = .ok (.sha384Finish a0 a1 a2) ∧
    decode ⟨0x00000043, a0, a1, a2⟩ = .ok .sha384Digest ∧
    decode ⟨0x00000053, a0, a1, a2⟩ = .ok .sha384Erase) ∧
  ∀ c : Command,
    c.cw ∉ ([0x00000010, 0x00000020, 0x00000030, 0x00000040, 0x00000050, 0x00000011, 0x00000021, 0x00000031, 0x00000041, 0x00000051,
      0x00000012, 0x00000022, 0x00000032, 0x00000042, 0x00000052, 0x00000013, 0x00000023, 0x00000033, 0x00000043, 0x00000053] : List Word32) →
    ∃ e, decode c = .error e

/-- Decode and encode agree through the bits; the order of the operand registers after `CW` is the model's own (assumption 8). -/
def Obligations.TableBitsRoundTrip : Prop :=
  ∀ i : Instr, (encode i).toNat < 2 ^ 224 ∧ decodeTableWord 224 (encode i).toNat = some i

/-- The other direction of the round trip: each command word has one meaning. -/
def Obligations.DecodedCommandKeepsItsWord : Prop :=
  ∀ (c : Command) (i : Instr), decode c = .ok i →
    (encode i).cw = c.cw ∧
    (i.operation = .cycle ∨ i.operation = .finish → (encode i).a0 = c.a0 ∧ (encode i).a1 = c.a1) ∧
    (i.operation = .finish → (encode i).a2 = c.a2)

/-- The mask test of `WellFormed.lean` and the field test of the decoder agree (R91, R97). -/
def Obligations.WellFormedCommandsAreThoseThatDecode : Prop :=
  ∀ c : Command, c.wellFormed = true ↔ ∃ i, decode c = .ok i

/-- R94: no value of an ignored operand makes a command illegal or another command. -/
def Obligations.IgnoredOperandsDoNotMatter : Prop :=
  ∀ (c : Command) (i : Instr) (a0 a1 a2 : Word64), decode c = .ok i →
    (i.operation = .init ∨ i.operation = .digest ∨ i.operation = .erase →
      decode ⟨c.cw, a0, a1, a2⟩ = .ok i) ∧
    (i.operation = .cycle → decode ⟨c.cw, c.a0, c.a1, a2⟩ = .ok i)

/-- R120 for a decoded command; that inputs wait in an inbox is the model's own (assumption 4). -/
def Obligations.StepRunsDecodedCommand : Prop :=
  ∀ (s : State) (c : Command) (rest : List HostInput) (i : Instr),
    s.inbox = .present c :: rest → decode c = .ok i →
    step s = exec i { s with inbox := rest, cw := c.cw, a0 := c.a0, a1 := c.a1, a2 := c.a2 }

/-- How a program's words come to run (assumption 4). -/
def Obligations.FetchedTableWordRuns : Prop :=
  ∀ (s : State) (nbits w : Nat) (i : Instr), decodeTableWord nbits w = some i →
    step (s.withFetchWord nbits w) = exec i (s.setPort (tableCommand nbits w))

/-- R97: the response `RC = 1`, and no state of any core changes. -/
def Obligations.UndecodableWordOnlyAnswers : Prop :=
  ∀ (s : State) (c : Command) (rest : List HostInput),
    s.inbox = .present c :: rest →
    (c.cw.extractLsb' 8 24 ≠ 0 ∨ c.cw.extractLsb' 2 2 ≠ 0 ∨ c.cw.extractLsb' 4 4 = 0 ∨ 6 ≤ (c.cw.extractLsb' 4 4).toNat) →
    step s = .next { s with
      inbox := rest, cw := c.cw, a0 := c.a0, a1 := c.a1, a2 := c.a2, rc := 1, rdata := List.replicate 48 0 }

/-- Between commands the block is idle and holds its state (R278, R301). -/
def Obligations.IdleBlockHoldsItsState : Prop :=
  ∀ s : State, s.inbox = [] → step s = .next s

/-- R40 and R300: what reset sets, beside any message memory and `Readable` (R10), with no command running and with one
abandoned by it. THE MODEL'S OWN CHOICE (assumption 9): the clauses that the command port, message memory and the waiting
inputs survive a reset, and that the port then holds an abandoned command. -/
def Obligations.ResetInputGivesResetState : Prop :=
  (∀ m : Memory, (∀ c, ClearedCore c (State.resetOn m)) ∧ (State.resetOn m).epi = List.replicate 256 0 ∧
    (State.resetOn m).rc = 0 ∧ (State.resetOn m).rdata = List.replicate 48 0 ∧ (State.resetOn m).mem = m) ∧
  (∀ c, ClearedCore c State.reset) ∧ State.reset.epi = List.replicate 256 0 ∧ State.reset.rc = 0 ∧
  State.reset.rdata = List.replicate 48 0 ∧ (∀ a, a < 2 ^ 64 → State.reset.mem.readable a = true) ∧
  (∀ (s : State) (rest : List HostInput), s.inbox = .reset :: rest →
    ∃ t, step s = .next t ∧ (∀ c, ClearedCore c t) ∧ t.epi = List.replicate 256 0 ∧ t.rc = 0 ∧
      t.rdata = List.replicate 48 0 ∧ t.cw = s.cw ∧ t.a0 = s.a0 ∧ t.a1 = s.a1 ∧ t.a2 = s.a2 ∧
      t.mem = s.mem ∧ t.inbox = rest) ∧
  ∀ (s : State) (c : Command) (rest : List HostInput), s.inbox = .presentReset c :: rest →
    ∃ t, step s = .next t ∧ (∀ d, ClearedCore d t) ∧ t.epi = List.replicate 256 0 ∧ t.rc = 0 ∧
      t.rdata = List.replicate 48 0 ∧ t.cw = c.cw ∧ t.a0 = c.a0 ∧ t.a1 = c.a1 ∧ t.a2 = c.a2 ∧
      t.mem = s.mem ∧ t.inbox = rest

/-- The base case of the invariant, beside any message memory and `Readable` in canonical form (R10). -/
def Obligations.ResetStateMeetsInvariant : Prop :=
  State.reset.Inv ∧ ∀ m : Memory, m.wf = true → (State.resetOn m).Inv

/-- R32 (EPI is all zero between commands) and the rest of `State.Inv`, kept from every state that meets it, not only along runs from reset. -/
def Obligations.EveryStepKeepsInvariant : Prop :=
  ∀ s t : State, s.Inv → step s = .next t → t.Inv

/-- R320: every accepted command produces its response; U7 is the one refusal. -/
def Obligations.StepStopsOnlyOnChangedPort : Prop :=
  ∀ s : State,
    (∃ t, step s = .next t) ∨
    (∃ c d rest, s.inbox = .presentChanged c d :: rest ∧ step s = .refused .portChangedBeforeAcceptance)

/-- R28, R95: exactly one response, its code and its data. -/
def Obligations.EveryCommandAnswers : Prop :=
  ∀ (i : Instr) (s : State), ∃ t, exec i s = .next t ∧
    (t.rc = 0 ∨ t.rc = 2 ∨ t.rc = 3 ∨ t.rc = 4 ∨ t.rc = 5) ∧
    t.rdata.length = 48 ∧
    (t.rc ≠ 0 ∨ i.operation ≠ .digest → t.rdata = List.replicate 48 0)

/-- R76(a): everything the host wrote before a command is visible to it; R10, R63: which addresses are readable is the
platform's, and no write changes it (assumptions 1 and 4). The premise on memory is part of `State.Inv`. -/
def Obligations.HostWritesLandBetweenCommands : Prop :=
  (∀ (s : State) (a : Word64) (b : Byte) (rest : List HostInput), s.inbox = .write a b :: rest → s.mem.wf = true →
    ∃ m, step s = .next { s with inbox := rest, mem := m } ∧ m.byte a.toNat = b ∧
      (∀ x, x ≠ a.toNat → m.byte x = s.mem.byte x) ∧ ∀ x, m.readable x = s.mem.readable x) ∧
  (∀ (s : State) (ranges : List Region) (rest : List HostInput), s.inbox = .setReadable ranges :: rest →
    ∃ m, step s = .next { s with inbox := rest, mem := m } ∧ (∀ x, m.byte x = s.mem.byte x) ∧
      ∀ x, m.readable x = true ↔ x < 2 ^ 64 ∧ ∃ r ∈ ranges, r.first ≤ x ∧ x < r.past)

/-- R311's free draw (assumption 5); nothing is said of which byte is drawn. -/
def Obligations.RacedCommandSeesOldOrNewBytes : Prop :=
  ∀ (s : State) (c : Command) (ws : List (Word64 × Byte)) (rest : List HostInput),
    s.inbox = .presentRaced c ws :: rest → s.mem.wf = true →
    ∃ (m : Memory) (t : State),
      (∀ a, m.readable a = s.mem.readable a) ∧
      (∀ a, m.byte a = s.mem.byte a ∨ ∃ w ∈ ws, w.1.toNat = a ∧ m.byte a = w.2) ∧
      acceptCommand { s with
        inbox := rest, mem := m, draws := s.draws + ws.length,
        cw := c.cw, a0 := c.a0, a1 := c.a1, a2 := c.a2 } = .next t ∧
      step s = .next { t with mem := s.mem.writeAll ws } ∧
      (∀ a, (s.mem.writeAll ws).readable a = s.mem.readable a) ∧
      (∀ a, (∀ w ∈ ws, w.1.toNat ≠ a) → (s.mem.writeAll ws).byte a = s.mem.byte a) ∧
      ∀ (us : List (Word64 × Byte)) (w : Word64 × Byte) (vs : List (Word64 × Byte)),
        ws = us ++ w :: vs → (∀ v ∈ vs, v.1 ≠ w.1) → (s.mem.writeAll ws).byte w.1.toNat = w.2

/-- R10, R63: `Readable` is an argument of the model (`State.resetOn`, `HostInput.setReadable`); the list form of it and of
`MSG` (assumption 1) loses no value, and the byte at an address does not depend on whether it is readable. -/
def Obligations.EveryHostMemoryIsRepresented : Prop :=
  ∀ (msg : Nat → Byte) (readable : Nat → Bool),
    ∃ m : Memory, m.wf = true ∧ (∀ a, a < 2 ^ 64 → m.byte a = msg a ∧ m.readable a = readable a) ∧
      ∀ a, 2 ^ 64 ≤ a → m.readable a = false

/-- The canonical form of assumption 1: two memories that hold the same bytes and are readable at the same addresses are the
same data. -/
def Obligations.CanonicalMemoriesThatAgreeAreEqual : Prop :=
  ∀ m n : Memory, m.wf = true → n.wf = true →
    (∀ a, a < 2 ^ 64 → m.byte a = n.byte a ∧ m.readable a = n.readable a) → m = n

/-- R64. -/
def Obligations.MemReadReturnsTheBytesOrFaults : Prop :=
  ∀ (m : Memory) (addr n : Nat),
    ((∀ j, j < n → m.readable (addr + j) = true) →
      ∃ bytes, memRead m addr n = some bytes ∧ bytes.length = n ∧ MemHolds m addr bytes) ∧
    (SomeUnreadable m addr n → memRead m addr n = none) ∧
    memRead m addr 0 = some []

/-- The frame of all 20 commands: R41, R62 (the block never writes `MSG`), R27 (the block never writes the port). -/
def Obligations.CommandTouchesOnlyItsCore : Prop :=
  ∀ (i : Instr) (s t : State), exec i s = .next t →
    (∀ c, c ≠ i.coreId → SameCore c s t) ∧ SameHostSide s t

/-- The rest of the frame: the registers of the addressed core and the shared buffer. THE MODEL'S OWN CHOICE (assumption 3):
the last clause, on `draws`, which is no register of the spec. -/
def Obligations.CommandLeavesItsOwnCoreWhereTheSpecSaysSo : Prop :=
  ∀ (i : Instr) (s t : State), exec i s = .next t →
    (i.operation = .digest → SameHash i.coreId s t) ∧
    (t.rc = 0 → i.operation = .cycle ∨ i.operation = .digest → t.phaseOf i.coreId = s.phaseOf i.coreId) ∧
    (t.rc = 0 → i.operation ≠ .erase → t.fcodeOf i.coreId = s.fcodeOf i.coreId) ∧
    (i.operation ≠ .finish → t.epi = s.epi) ∧
    (t.rc = 0 ∨ i.operation ≠ .cycle → t.draws = s.draws)

/-- R41 the other way round: no information flows from one core to another. -/
def Obligations.CommandReadsOnlyItsCore : Prop :=
  ∀ (i : Instr) (s s' : State),
    SameCore i.coreId s s' → s'.epi = s.epi → s'.mem = s.mem → s'.draws = s.draws →
    ∃ t t', exec i s = .next t ∧ exec i s' = .next t' ∧
      SameCore i.coreId t t' ∧ t'.epi = t.epi ∧ t'.draws = t.draws ∧ t'.rc = t.rc ∧ t'.rdata = t.rdata

/-- R72, R79, D25: exactly the named bytes, never more. -/
def Obligations.OnlyNamedBytesAreRead : Prop :=
  ∀ (c : CoreId) (op : Operation) (a0 a1 a2 : Word64) (s : State) (m : Memory),
    (∀ j, j < (namedRange c op a0 a1).2 →
      m.read ((namedRange c op a0 a1).1 + j) = s.mem.read ((namedRange c op a0 a1).1 + j)) →
    ∃ t, exec (instrOf c op a0 a1 a2) s = .next t ∧ t.mem = s.mem ∧
      exec (instrOf c op a0 a1 a2) { s with mem := m } = .next { t with mem := m }

/-- R121 with the four initial values written out (R161, R191; those of R211 and R231 too). -/
def Obligations.InitLoadsTheInitialValue : Prop :=
  ∀ s : State,
    (s.ripemd256.phase = .idle →
      exec .ripemd256Init s = .next { s with
        ripemd256 := ⟨⟨0x67452301, 0xEFCDAB89, 0x98BADCFE, 0x10325476, 0x76543210, 0xFEDCBA98, 0x89ABCDEF, 0x01234567⟩, .active, s.ripemd256.fcode⟩
        rc := 0
        rdata := List.replicate 48 0 }) ∧
    (s.ripemd256.phase ≠ .idle →
      ∃ f, exec .ripemd256Init s = .next { s with
        ripemd256 := ⟨s.ripemd256.h, .faulted, f⟩, rc := 2, rdata := List.replicate 48 0 }) ∧
    (s.sha1.phase = .idle →
      exec .sha1Init s = .next { s with
        sha1 := ⟨⟨0x67452301, 0xEFCDAB89, 0x98BADCFE, 0x10325476, 0xC3D2E1F0⟩, .active, s.sha1.fcode⟩
        rc := 0
        rdata := List.replicate 48 0 }) ∧
    (s.sha1.phase ≠ .idle →
      ∃ f, exec .sha1Init s = .next { s with
        sha1 := ⟨s.sha1.h, .faulted, f⟩, rc := 2, rdata := List.replicate 48 0 }) ∧
    (s.sha256.phase = .idle →
      exec .sha256Init s = .next { s with
        sha256 := ⟨⟨0x6A09E667, 0xBB67AE85, 0x3C6EF372, 0xA54FF53A, 0x510E527F, 0x9B05688C, 0x1F83D9AB, 0x5BE0CD19⟩, .active, s.sha256.fcode⟩
        rc := 0
        rdata := List.replicate 48 0 }) ∧
    (s.sha256.phase ≠ .idle →
      ∃ f, exec .sha256Init s = .next { s with
        sha256 := ⟨s.sha256.h, .faulted, f⟩, rc := 2, rdata := List.replicate 48 0 }) ∧
    (s.sha384.phase = .idle →
      exec .sha384Init s = .next { s with
        sha384 := ⟨⟨0xCBBB9D5DC1059ED8, 0x629A292A367CD507, 0x9159015A3070DD17, 0x152FECD8F70E5939,
          0x67332667FFC00B31, 0x8EB44A8768581511, 0xDB0C2E0D64F98FA7, 0x47B5481DBEFA4FA4⟩, .active, s.sha384.fcode⟩
        rc := 0
        rdata := List.replicate 48 0 }) ∧
    (s.sha384.phase ≠ .idle →
      ∃ f, exec .sha384Init s = .next { s with
        sha384 := ⟨s.sha384.h, .faulted, f⟩, rc := 2, rdata := List.replicate 48 0 })

/-- R122 where CYCLE completes: the left fold of R123 over the blocks. -/
def Obligations.CycleAbsorbsItsBlocks : Prop :=
  ∀ (s : State) (p n : Word64) (bytes : List Byte), MemHolds s.mem p.toNat bytes →
    (s.live .ripemd256 → p.toNat + n.toNat * 64 ≤ 2 ^ 64 → bytes.length = n.toNat * 64 →
      exec (.ripemd256Cycle p n) s = .next { s with
        ripemd256 := { s.ripemd256 with h := chainBlocks absorbRipemd256 64 n.toNat bytes s.ripemd256.h }
        rc := 0
        rdata := List.replicate 48 0 }) ∧
    (s.live .sha1 → p.toNat + n.toNat * 64 ≤ 2 ^ 64 → bytes.length = n.toNat * 64 →
      exec (.sha1Cycle p n) s = .next { s with
        sha1 := { s.sha1 with h := chainBlocks absorbSha1 64 n.toNat bytes s.sha1.h }
        rc := 0
        rdata := List.replicate 48 0 }) ∧
    (s.live .sha256 → p.toNat + n.toNat * 64 ≤ 2 ^ 64 → bytes.length = n.toNat * 64 →
      exec (.sha256Cycle p n) s = .next { s with
        sha256 := { s.sha256 with h := chainBlocks absorbSha256 64 n.toNat bytes s.sha256.h }
        rc := 0
        rdata := List.replicate 48 0 }) ∧
    (s.live .sha384 → p.toNat + n.toNat * 128 ≤ 2 ^ 64 → bytes.length = n.toNat * 128 →
      exec (.sha384Cycle p n) s = .next { s with
        sha384 := { s.sha384 with h := chainBlocks absorbSha384 128 n.toNat bytes s.sha384.h }
        rc := 0
        rdata := List.replicate 48 0 })

/-- R80. -/
def Obligations.ZeroLengthOperandsReadNothing : Prop :=
  (∀ (s : State) (p : Word64),
    (s.live .ripemd256 →
      exec (.ripemd256Cycle p 0) s = .next { s with rc := 0, rdata := List.replicate 48 0 }) ∧
    (s.live .sha1 →
      exec (.sha1Cycle p 0) s = .next { s with rc := 0, rdata := List.replicate 48 0 }) ∧
    (s.live .sha256 →
      exec (.sha256Cycle p 0) s = .next { s with rc := 0, rdata := List.replicate 48 0 }) ∧
    (s.live .sha384 →
      exec (.sha384Cycle p 0) s = .next { s with rc := 0, rdata := List.replicate 48 0 })) ∧
  (∀ (s u : State) (p q total : Word64) (m : Memory), u.mem = s.mem →
    (exec (.ripemd256Finish p 0 total) { s with mem := m } = .next { u with mem := m } ↔
      exec (.ripemd256Finish q 0 total) s = .next u) ∧
    (exec (.sha1Finish p 0 total) { s with mem := m } = .next { u with mem := m } ↔
      exec (.sha1Finish q 0 total) s = .next u) ∧
    (exec (.sha256Finish p 0 total) { s with mem := m } = .next { u with mem := m } ↔
      exec (.sha256Finish q 0 total) s = .next u) ∧
    (exec (.sha384Finish p 0 total) { s with mem := m } = .next { u with mem := m } ↔
      exec (.sha384Finish q 0 total) s = .next u))

/-- R65, R64: where CYCLE traps. THE MODEL'S OWN CHOICE (assumption 3): that `H[c]` is kept on `AddrRange` and on a
`ReadFault` at block 0, which follows R273(d), while R140 and U8 call `H[c]` unspecified after any fault inside CYCLE.
After a `ReadFault` at a block past the first `H[c]` may be anything. -/
def Obligations.CycleFaultsOnItsRange : Prop :=
  ∀ (s : State) (p n : Word64),
    (s.live .ripemd256 →
      (2 ^ 64 < p.toNat + n.toNat * 64 →
        exec (.ripemd256Cycle p n) s = .next { s with
          ripemd256 := ⟨s.ripemd256.h, .faulted, 4⟩, rc := 4, rdata := List.replicate 48 0 }) ∧
      (p.toNat + n.toNat * 64 ≤ 2 ^ 64 → 0 < n.toNat → SomeUnreadable s.mem p.toNat 64 →
        exec (.ripemd256Cycle p n) s = .next { s with
          ripemd256 := ⟨s.ripemd256.h, .faulted, 5⟩, rc := 5, rdata := List.replicate 48 0 }) ∧
      (p.toNat + n.toNat * 64 ≤ 2 ^ 64 → ¬ SomeUnreadable s.mem p.toNat 64 →
        SomeUnreadable s.mem p.toNat (n.toNat * 64) →
        ∃ h d, exec (.ripemd256Cycle p n) s = .next { s with
          ripemd256 := ⟨h, .faulted, 5⟩, draws := d, rc := 5, rdata := List.replicate 48 0 })) ∧
    (s.live .sha1 →
      (2 ^ 64 < p.toNat + n.toNat * 64 →
        exec (.sha1Cycle p n) s = .next { s with
          sha1 := ⟨s.sha1.h, .faulted, 4⟩, rc := 4, rdata := List.replicate 48 0 }) ∧
      (p.toNat + n.toNat * 64 ≤ 2 ^ 64 → 0 < n.toNat → SomeUnreadable s.mem p.toNat 64 →
        exec (.sha1Cycle p n) s = .next { s with
          sha1 := ⟨s.sha1.h, .faulted, 5⟩, rc := 5, rdata := List.replicate 48 0 }) ∧
      (p.toNat + n.toNat * 64 ≤ 2 ^ 64 → ¬ SomeUnreadable s.mem p.toNat 64 →
        SomeUnreadable s.mem p.toNat (n.toNat * 64) →
        ∃ h d, exec (.sha1Cycle p n) s = .next { s with
          sha1 := ⟨h, .faulted, 5⟩, draws := d, rc := 5, rdata := List.replicate 48 0 })) ∧
    (s.live .sha256 →
      (2 ^ 64 < p.toNat + n.toNat * 64 →
        exec (.sha256Cycle p n) s = .next { s with
          sha256 := ⟨s.sha256.h, .faulted, 4⟩, rc := 4, rdata := List.replicate 48 0 }) ∧
      (p.toNat + n.toNat * 64 ≤ 2 ^ 64 → 0 < n.toNat → SomeUnreadable s.mem p.toNat 64 →
        exec (.sha256Cycle p n) s = .next { s with
          sha256 := ⟨s.sha256.h, .faulted, 5⟩, rc := 5, rdata := List.replicate 48 0 }) ∧
      (p.toNat + n.toNat * 64 ≤ 2 ^ 64 → ¬ SomeUnreadable s.mem p.toNat 64 →
        SomeUnreadable s.mem p.toNat (n.toNat * 64) →
        ∃ h d, exec (.sha256Cycle p n) s = .next { s with
          sha256 := ⟨h, .faulted, 5⟩, draws := d, rc := 5, rdata := List.replicate 48 0 })) ∧
    (s.live .sha384 →
      (2 ^ 64 < p.toNat + n.toNat * 128 →
        exec (.sha384Cycle p n) s = .next { s with
          sha384 := ⟨s.sha384.h, .faulted, 4⟩, rc := 4, rdata := List.replicate 48 0 }) ∧
      (p.toNat + n.toNat * 128 ≤ 2 ^ 64 → 0 < n.toNat → SomeUnreadable s.mem p.toNat 128 →
        exec (.sha384Cycle p n) s = .next { s with
          sha384 := ⟨s.sha384.h, .faulted, 5⟩, rc := 5, rdata := List.replicate 48 0 }) ∧
      (p.toNat + n.toNat * 128 ≤ 2 ^ 64 → ¬ SomeUnreadable s.mem p.toNat 128 →
        SomeUnreadable s.mem p.toNat (n.toNat * 128) →
        ∃ h d, exec (.sha384Cycle p n) s = .next { s with
          sha384 := ⟨h, .faulted, 5⟩, draws := d, rc := 5, rdata := List.replicate 48 0 }))

/-- R122's law of CYCLE as a left fold; chunking invariance over CYCLE (R263). -/
def Obligations.CycleSplitsAnywhere : Prop :=
  ∀ (s : State) (p m n : Word64),
    (s.live .ripemd256 → p.toNat + (m.toNat + n.toNat) * 64 ≤ 2 ^ 64 →
      ¬ SomeUnreadable s.mem p.toNat ((m.toNat + n.toNat) * 64) →
      ∃ t, execAll [.ripemd256Cycle p m, .ripemd256Cycle (p + m * 64) n] s = some t ∧ t.rc = 0 ∧
        exec (.ripemd256Cycle p (m + n)) s = .next t) ∧
    (s.live .sha1 → p.toNat + (m.toNat + n.toNat) * 64 ≤ 2 ^ 64 →
      ¬ SomeUnreadable s.mem p.toNat ((m.toNat + n.toNat) * 64) →
      ∃ t, execAll [.sha1Cycle p m, .sha1Cycle (p + m * 64) n] s = some t ∧ t.rc = 0 ∧
        exec (.sha1Cycle p (m + n)) s = .next t) ∧
    (s.live .sha256 → p.toNat + (m.toNat + n.toNat) * 64 ≤ 2 ^ 64 →
      ¬ SomeUnreadable s.mem p.toNat ((m.toNat + n.toNat) * 64) →
      ∃ t, execAll [.sha256Cycle p m, .sha256Cycle (p + m * 64) n] s = some t ∧ t.rc = 0 ∧
        exec (.sha256Cycle p (m + n)) s = .next t) ∧
    (s.live .sha384 → p.toNat + (m.toNat + n.toNat) * 128 ≤ 2 ^ 64 →
      ¬ SomeUnreadable s.mem p.toNat ((m.toNat + n.toNat) * 128) →
      ∃ t, execAll [.sha384Cycle p m, .sha384Cycle (p + m * 128) n] s = some t ∧ t.rc = 0 ∧
        exec (.sha384Cycle p (m + n)) s = .next t)

/-- R124 to R128 where FINISH completes; the premise on EPI is R32, kept by `EveryStepKeepsInvariant`. -/
def Obligations.FinishPadsAbsorbsAndEnds : Prop :=
  ∀ (s : State) (p size total : Word64) (tail : List Byte),
    s.epi = List.replicate 256 0 → MemHolds s.mem p.toNat tail → tail.length = size.toNat →
    p.toNat + size.toNat ≤ 2 ^ 64 →
    (s.live .ripemd256 → size.toNat ≤ 119 →
      exec (.ripemd256Finish p size total) s = .next { s with
        ripemd256 :=
          ⟨(chainBlocks absorbRipemd256 64 (if size.toNat ≤ 55 then 1 else 2)
            (paddedTail (if size.toNat ≤ 55 then 64 else 128) tail
              (toLeBytes (BitVec.ofNat 64 (total.toNat * 8)))) s.ripemd256.h),
            .final, s.ripemd256.fcode⟩
        rc := 0
        rdata := List.replicate 48 0 }) ∧
    (s.live .sha1 → size.toNat ≤ 119 →
      exec (.sha1Finish p size total) s = .next { s with
        sha1 :=
          ⟨(chainBlocks absorbSha1 64 (if size.toNat ≤ 55 then 1 else 2)
            (paddedTail (if size.toNat ≤ 55 then 64 else 128) tail
              (toBeBytes (BitVec.ofNat 64 (total.toNat * 8)))) s.sha1.h).map bswap,
            .final, s.sha1.fcode⟩
        rc := 0
        rdata := List.replicate 48 0 }) ∧
    (s.live .sha256 → size.toNat ≤ 119 →
      exec (.sha256Finish p size total) s = .next { s with
        sha256 :=
          ⟨(chainBlocks absorbSha256 64 (if size.toNat ≤ 55 then 1 else 2)
            (paddedTail (if size.toNat ≤ 55 then 64 else 128) tail
              (toBeBytes (BitVec.ofNat 64 (total.toNat * 8)))) s.sha256.h).map bswap,
            .final, s.sha256.fcode⟩
        rc := 0
        rdata := List.replicate 48 0 }) ∧
    (s.live .sha384 → size.toNat ≤ 239 →
      exec (.sha384Finish p size total) s = .next { s with
        sha384 :=
          ⟨(chainBlocks absorbSha384 128 (if size.toNat ≤ 111 then 1 else 2)
            (paddedTail (if size.toNat ≤ 111 then 128 else 256) tail
              (toBeBytes (total >>> 61) ++ toBeBytes (BitVec.ofNat 64 (total.toNat * 8)))) s.sha384.h).map bswap,
            .final, s.sha384.fcode⟩
        rc := 0
        rdata := List.replicate 48 0 })

/-- R124, R271, R273: where FINISH traps. THE MODEL'S OWN CHOICE (assumption 3): that `H[c]` is kept on all three faults,
which follows R273(d), while R140 and U8 call `H[c]` unspecified after any fault inside FINISH. -/
def Obligations.FinishFaultsOnItsOperands : Prop :=
  ∀ (s : State) (p size total : Word64),
    (s.live .ripemd256 →
      (119 < size.toNat →
        exec (.ripemd256Finish p size total) s = .next { s with
          ripemd256 := ⟨s.ripemd256.h, .faulted, 3⟩, epi := List.replicate 256 0, rc := 3, rdata := List.replicate 48 0 }) ∧
      (size.toNat ≤ 119 → 2 ^ 64 < p.toNat + size.toNat →
        exec (.ripemd256Finish p size total) s = .next { s with
          ripemd256 := ⟨s.ripemd256.h, .faulted, 4⟩, epi := List.replicate 256 0, rc := 4, rdata := List.replicate 48 0 }) ∧
      (size.toNat ≤ 119 → p.toNat + size.toNat ≤ 2 ^ 64 → SomeUnreadable s.mem p.toNat size.toNat →
        exec (.ripemd256Finish p size total) s = .next { s with
          ripemd256 := ⟨s.ripemd256.h, .faulted, 5⟩, epi := List.replicate 256 0, rc := 5, rdata := List.replicate 48 0 })) ∧
    (s.live .sha1 →
      (119 < size.toNat →
        exec (.sha1Finish p size total) s = .next { s with
          sha1 := ⟨s.sha1.h, .faulted, 3⟩, epi := List.replicate 256 0, rc := 3, rdata := List.replicate 48 0 }) ∧
      (size.toNat ≤ 119 → 2 ^ 64 < p.toNat + size.toNat →
        exec (.sha1Finish p size total) s = .next { s with
          sha1 := ⟨s.sha1.h, .faulted, 4⟩, epi := List.replicate 256 0, rc := 4, rdata := List.replicate 48 0 }) ∧
      (size.toNat ≤ 119 → p.toNat + size.toNat ≤ 2 ^ 64 → SomeUnreadable s.mem p.toNat size.toNat →
        exec (.sha1Finish p size total) s = .next { s with
          sha1 := ⟨s.sha1.h, .faulted, 5⟩, epi := List.replicate 256 0, rc := 5, rdata := List.replicate 48 0 })) ∧
    (s.live .sha256 →
      (119 < size.toNat →
        exec (.sha256Finish p size total) s = .next { s with
          sha256 := ⟨s.sha256.h, .faulted, 3⟩, epi := List.replicate 256 0, rc := 3, rdata := List.replicate 48 0 }) ∧
      (size.toNat ≤ 119 → 2 ^ 64 < p.toNat + size.toNat →
        exec (.sha256Finish p size total) s = .next { s with
          sha256 := ⟨s.sha256.h, .faulted, 4⟩, epi := List.replicate 256 0, rc := 4, rdata := List.replicate 48 0 }) ∧
      (size.toNat ≤ 119 → p.toNat + size.toNat ≤ 2 ^ 64 → SomeUnreadable s.mem p.toNat size.toNat →
        exec (.sha256Finish p size total) s = .next { s with
          sha256 := ⟨s.sha256.h, .faulted, 5⟩, epi := List.replicate 256 0, rc := 5, rdata := List.replicate 48 0 })) ∧
    (s.live .sha384 →
      (239 < size.toNat →
        exec (.sha384Finish p size total) s = .next { s with
          sha384 := ⟨s.sha384.h, .faulted, 3⟩, epi := List.replicate 256 0, rc := 3, rdata := List.replicate 48 0 }) ∧
      (size.toNat ≤ 239 → 2 ^ 64 < p.toNat + size.toNat →
        exec (.sha384Finish p size total) s = .next { s with
          sha384 := ⟨s.sha384.h, .faulted, 4⟩, epi := List.replicate 256 0, rc := 4, rdata := List.replicate 48 0 }) ∧
      (size.toNat ≤ 239 → p.toNat + size.toNat ≤ 2 ^ 64 → SomeUnreadable s.mem p.toNat size.toNat →
        exec (.sha384Finish p size total) s = .next { s with
          sha384 := ⟨s.sha384.h, .faulted, 5⟩, epi := List.replicate 256 0, rc := 5, rdata := List.replicate 48 0 }))

/-- R254. -/
def Obligations.FinishAlwaysWipesEpilogue : Prop :=
  ∀ (c : CoreId) (p size total : Word64) (s : State),
    ∃ t, exec (instrOf c .finish p size total) s = .next t ∧
      (s.live c → t.epi = List.replicate 256 0) ∧
      (¬ s.live c → t.rc = 2 ∧ t.epi = s.epi)

/-- R137. -/
def Obligations.LongTailEqualsCycleThenFinish : Prop :=
  ∀ (s : State) (p size total : Word64),
    s.epi = List.replicate 256 0 → p.toNat + size.toNat ≤ 2 ^ 64 → ¬ SomeUnreadable s.mem p.toNat size.toNat →
    (s.live .ripemd256 → 64 ≤ size.toNat → size.toNat ≤ 119 →
      ∃ t, exec (.ripemd256Finish p size total) s = .next t ∧ t.rc = 0 ∧
        execAll [.ripemd256Cycle p 1, .ripemd256Finish (p + 64) (size - 64) total] s = some t) ∧
    (s.live .sha1 → 64 ≤ size.toNat → size.toNat ≤ 119 →
      ∃ t, exec (.sha1Finish p size total) s = .next t ∧ t.rc = 0 ∧
        execAll [.sha1Cycle p 1, .sha1Finish (p + 64) (size - 64) total] s = some t) ∧
    (s.live .sha256 → 64 ≤ size.toNat → size.toNat ≤ 119 →
      ∃ t, exec (.sha256Finish p size total) s = .next t ∧ t.rc = 0 ∧
        execAll [.sha256Cycle p 1, .sha256Finish (p + 64) (size - 64) total] s = some t) ∧
    (s.live .sha384 → 128 ≤ size.toNat → size.toNat ≤ 239 →
      ∃ t, exec (.sha384Finish p size total) s = .next t ∧ t.rc = 0 ∧
        execAll [.sha384Cycle p 1, .sha384Finish (p + 128) (size - 128) total] s = some t)

/-- R139's first two claims: fault-free, and the same response for every `q`. -/
def Obligations.DigestDoesNotDependOnTheSplit : Prop :=
  ∀ (c : CoreId) (s : State) (p n q r : Word64),
    s.phaseOf c = .idle → s.epi = List.replicate 256 0 → p.toNat + n.toNat ≤ 2 ^ 64 →
    ¬ SomeUnreadable s.mem p.toNat n.toNat →
    q.toNat * blockSizeOf c ≤ n.toNat → n.toNat - q.toNat * blockSizeOf c ≤ tailLimitOf c →
    r.toNat * blockSizeOf c ≤ n.toNat → n.toNat - r.toNat * blockSizeOf c ≤ tailLimitOf c →
    ∃ t, t.rc = 0 ∧
      execAll [instrOf c .init 0 0 0, instrOf c .cycle p q 0,
        instrOf c .finish (p + q * BitVec.ofNat 64 (blockSizeOf c)) (n - q * BitVec.ofNat 64 (blockSizeOf c)) n,
        instrOf c .digest 0 0 0] s = some t ∧
      execAll [instrOf c .init 0 0 0, instrOf c .cycle p r 0,
        instrOf c .finish (p + r * BitVec.ofNat 64 (blockSizeOf c)) (n - r * BitVec.ofNat 64 (blockSizeOf c)) n,
        instrOf c .digest 0 0 0] s = some t

/-- R261's expansion and its claims for a fault-free run; the premise on EPI is R32, kept by `EveryStepKeepsInvariant`.
THE MODEL'S OWN CHOICE (assumption 11): FINISH's operand `p + q*BS`, where `q*BS = len` and the message ends at the top of
the address space, is written modulo `2^64`, so 0; FINISH ignores it there (R80). -/
def Obligations.HashPseudoInstruction : Prop :=
  ∀ (c : CoreId) (s : State) (p len : Word64),
    s.phaseOf c = .idle → s.epi = List.replicate 256 0 → p.toNat + len.toNat ≤ 2 ^ 64 →
    ¬ SomeUnreadable s.mem p.toNat len.toNat →
    hashCommands c p len =
      [instrOf c .init 0 0 0, instrOf c .cycle p (BitVec.ofNat 64 (len.toNat / blockSizeOf c)) 0,
        instrOf c .finish (p + BitVec.ofNat 64 (len.toNat / blockSizeOf c * blockSizeOf c))
          (BitVec.ofNat 64 (len.toNat % blockSizeOf c)) len,
        instrOf c .digest 0 0 0, instrOf c .erase 0 0 0] ∧
    ∃ u t,
      execAll ((hashCommands c p len).take 4) s = some u ∧ u.rc = 0 ∧
      execAll (hashCommands c p len) s = some t ∧ t.rc = 0 ∧ ClearedCore c t ∧
      (len.toNat < blockSizeOf c →
        execAll [instrOf c .init 0 0 0, instrOf c .finish p len len, instrOf c .digest 0 0 0] s = some u) ∧
      (len.toNat ≤ tailLimitOf c →
        execAll [instrOf c .init 0 0 0, instrOf c .finish p len len, instrOf c .digest 0 0 0] s = some u ∧
        execAll [instrOf c .init 0 0 0, instrOf c .finish p len len, instrOf c .digest 0 0 0, instrOf c .erase 0 0 0] s =
          some t)

/-- R42 and R129: pure, repeatable, no mutation. -/
def Obligations.DigestAnswersTheStateImage : Prop :=
  ∀ s : State,
    (s.live .ripemd256 → ∃ t, exec .ripemd256Digest s = .next t ∧ exec .ripemd256Digest t = .next t ∧
      t = { s with
        rc := 0
        rdata :=
          toLeBytes s.ripemd256.h.h0 ++ toLeBytes s.ripemd256.h.h1 ++ toLeBytes s.ripemd256.h.h2 ++ toLeBytes s.ripemd256.h.h3 ++
          toLeBytes s.ripemd256.h.h4 ++ toLeBytes s.ripemd256.h.h5 ++ toLeBytes s.ripemd256.h.h6 ++ toLeBytes s.ripemd256.h.h7 ++
          List.replicate 16 0 }) ∧
    (s.live .sha1 → ∃ t, exec .sha1Digest s = .next t ∧ exec .sha1Digest t = .next t ∧
      t = { s with
        rc := 0
        rdata :=
          toLeBytes s.sha1.h.h0 ++ toLeBytes s.sha1.h.h1 ++ toLeBytes s.sha1.h.h2 ++ toLeBytes s.sha1.h.h3 ++
          toLeBytes s.sha1.h.h4 ++
          List.replicate 28 0 }) ∧
    (s.live .sha256 → ∃ t, exec .sha256Digest s = .next t ∧ exec .sha256Digest t = .next t ∧
      t = { s with
        rc := 0
        rdata :=
          toLeBytes s.sha256.h.h0 ++ toLeBytes s.sha256.h.h1 ++ toLeBytes s.sha256.h.h2 ++ toLeBytes s.sha256.h.h3 ++
          toLeBytes s.sha256.h.h4 ++ toLeBytes s.sha256.h.h5 ++ toLeBytes s.sha256.h.h6 ++ toLeBytes s.sha256.h.h7 ++
          List.replicate 16 0 }) ∧
    (s.live .sha384 → ∃ t, exec .sha384Digest s = .next t ∧ exec .sha384Digest t = .next t ∧
      t = { s with
        rc := 0
        rdata :=
          toLeBytes s.sha384.h.h0 ++ toLeBytes s.sha384.h.h1 ++ toLeBytes s.sha384.h.h2 ++ toLeBytes s.sha384.h.h3 ++
          toLeBytes s.sha384.h.h4 ++ toLeBytes s.sha384.h.h5 })

/-- R69: after the swap `to_le_w(bswap_w(v)) = to_be_w(v)`; R134(e). -/
def Obligations.ByteSwapMakesTheImageBigEndian : Prop :=
  (∀ x : Word32, toLeBytes (bswap x) = toBeBytes x ∧ toBeBytes x = (toLeBytes x).reverse ∧ bswap (bswap x) = x) ∧
  (∀ x : Word64, toLeBytes (bswap x) = toBeBytes x ∧ toBeBytes x = (toLeBytes x).reverse ∧ bswap (bswap x) = x)

/-- R14: the conversions and their inverses. -/
def Obligations.WordsAndBytesConvertBack : Prop :=
  (∀ x : Word32, beWord 32 (toBeBytes x) = x ∧ leWord 32 (toLeBytes x) = x) ∧
  (∀ x : Word64, beWord 64 (toBeBytes x) = x ∧ leWord 64 (toLeBytes x) = x) ∧
  (∀ b : List Byte, b.length = 4 → toBeBytes (beWord 32 b) = b ∧ toLeBytes (leWord 32 b) = b) ∧
  (∀ b : List Byte, b.length = 8 → toBeBytes (beWord 64 b) = b ∧ toLeBytes (leWord 64 b) = b)

/-- R13's formulas. -/
def Obligations.RotatesFollowTheirFormula : Prop :=
  (∀ (x : Word32) (n : Nat), 0 < n → n < 32 →
    (rotl x n).toNat = (x.toNat * 2 ^ n % 2 ^ 32) ||| (x.toNat / 2 ^ (32 - n)) ∧
    rotr x n = rotl x (32 - n) ∧ rotr (rotl x n) n = x) ∧
  (∀ (x : Word64) (n : Nat), 0 < n → n < 64 →
    (rotl x n).toNat = (x.toNat * 2 ^ n % 2 ^ 64) ||| (x.toNat / 2 ^ (64 - n)) ∧
    rotr x n = rotl x (64 - n) ∧ rotr (rotl x n) n = x)

/-- R127. -/
def Obligations.LengthFieldHoldsTheBitLength : Prop :=
  ∀ total : Word64,
    ((ripemd256Alg.lengthField total).length = 8 ∧
      leNat (ripemd256Alg.lengthField total) = total.toNat * 8 % 2 ^ 64) ∧
    ((sha1Alg.lengthField total).length = 8 ∧ beNat (sha1Alg.lengthField total) = total.toNat * 8 % 2 ^ 64) ∧
    ((sha256Alg.lengthField total).length = 8 ∧ beNat (sha256Alg.lengthField total) = total.toNat * 8 % 2 ^ 64) ∧
    ((sha384Alg.lengthField total).length = 16 ∧
      beNat ((sha384Alg.lengthField total).take 8) = total.toNat / 2 ^ 61 ∧ total.toNat / 2 ^ 61 < 8 ∧
      beNat ((sha384Alg.lengthField total).drop 8) = total.toNat * 8 % 2 ^ 64 ∧
      beNat (sha384Alg.lengthField total) = total.toNat * 8)

/-- R252. -/
def Obligations.EraseZeroesTheCoreInEveryPhase : Prop :=
  ∀ s : State,
    exec .ripemd256Erase s = .next { s with
      ripemd256 := ⟨⟨0, 0, 0, 0, 0, 0, 0, 0⟩, .idle, 0⟩, rc := 0, rdata := List.replicate 48 0 } ∧
    exec .sha1Erase s = .next { s with
      sha1 := ⟨⟨0, 0, 0, 0, 0⟩, .idle, 0⟩, rc := 0, rdata := List.replicate 48 0 } ∧
    exec .sha256Erase s = .next { s with
      sha256 := ⟨⟨0, 0, 0, 0, 0, 0, 0, 0⟩, .idle, 0⟩, rc := 0, rdata := List.replicate 48 0 } ∧
    exec .sha384Erase s = .next { s with
      sha384 := ⟨⟨0, 0, 0, 0, 0, 0, 0, 0⟩, .idle, 0⟩, rc := 0, rdata := List.replicate 48 0 }

/-- R275. -/
def Obligations.FaultedCoreRefusesAllButErase : Prop :=
  ∀ (i : Instr) (s : State), i.operation ≠ .erase → s.phaseOf i.coreId = .faulted →
    exec i s = .next { s with rc := 2, rdata := List.replicate 48 0 }

/-- R25, the table entry by entry. -/
def Obligations.PhaseTransitionTable : Prop :=
  (∀ (i : Instr) (s : State), ∃ t, exec i s = .next t ∧
    (∀ d, d ≠ i.coreId → t.phaseOf d = s.phaseOf d) ∧
    match i.operation, s.phaseOf i.coreId with
    | .init, .idle => t.rc = 0 ∧ t.phaseOf i.coreId = .active
    | .init, _ => t.rc = 2 ∧ t.phaseOf i.coreId = .faulted
    | .cycle, .active => (t.rc = 0 ∧ t.phaseOf i.coreId = .active) ∨
        ((t.rc = 4 ∨ t.rc = 5) ∧ t.phaseOf i.coreId = .faulted)
    | .cycle, .final => (t.rc = 0 ∧ t.phaseOf i.coreId = .final) ∨
        ((t.rc = 4 ∨ t.rc = 5) ∧ t.phaseOf i.coreId = .faulted)
    | .cycle, _ => t.rc = 2 ∧ t.phaseOf i.coreId = .faulted
    | .finish, .active => (t.rc = 0 ∧ t.phaseOf i.coreId = .final) ∨
        ((t.rc = 3 ∨ t.rc = 4 ∨ t.rc = 5) ∧ t.phaseOf i.coreId = .faulted)
    | .finish, .final => (t.rc = 0 ∧ t.phaseOf i.coreId = .final) ∨
        ((t.rc = 3 ∨ t.rc = 4 ∨ t.rc = 5) ∧ t.phaseOf i.coreId = .faulted)
    | .finish, _ => t.rc = 2 ∧ t.phaseOf i.coreId = .faulted
    | .digest, .active => t.rc = 0 ∧ t.phaseOf i.coreId = .active
    | .digest, .final => t.rc = 0 ∧ t.phaseOf i.coreId = .final
    | .digest, _ => t.rc = 2 ∧ t.phaseOf i.coreId = .faulted
    | .erase, _ => t.rc = 0 ∧ t.phaseOf i.coreId = .idle) ∧
  (∀ (s : State) (c : Command) (rest : List HostInput), s.inbox = .present c :: rest →
    (∃ e, decode c = .error e) → ∃ t, step s = .next t ∧ t.rc = 1 ∧ ∀ d, t.phaseOf d = s.phaseOf d)

/-- R272's order, and where a CYCLE stops. THE MODEL'S OWN CHOICE (assumption 3): the clause that a CYCLE stopped at block 0
keeps its HashState, which follows R273(d) over R140 and U8. -/
def Obligations.OneFaultInPriorityOrder : Prop :=
  (∀ (s : State) (c : Command) (rest : List HostInput), s.inbox = .present c :: rest →
    (∃ e, decode c = .error e) → ∃ t, step s = .next t ∧ t.rc = 1) ∧
  ∀ (c : CoreId) (a0 a1 a2 : Word64) (s : State),
    (∃ t, exec (instrOf c .erase a0 a1 a2) s = .next t ∧ t.rc = 0) ∧
    (∃ t, exec (instrOf c .init a0 a1 a2) s = .next t ∧
      (s.phaseOf c ≠ .idle → t.rc = 2) ∧ (s.phaseOf c = .idle → t.rc = 0)) ∧
    (∃ t, exec (instrOf c .digest a0 a1 a2) s = .next t ∧ (¬ s.live c → t.rc = 2) ∧ (s.live c → t.rc = 0)) ∧
    (∃ t, exec (instrOf c .cycle a0 a1 a2) s = .next t ∧
      (¬ s.live c → t.rc = 2) ∧
      (s.live c → 2 ^ 64 < a0.toNat + a1.toNat * blockSizeOf c → t.rc = 4) ∧
      (s.live c → a0.toNat + a1.toNat * blockSizeOf c ≤ 2 ^ 64 →
        SomeUnreadable s.mem a0.toNat (a1.toNat * blockSizeOf c) → t.rc = 5 ∧
        (SomeUnreadable s.mem a0.toNat (blockSizeOf c) → SameHash c s t)) ∧
      (s.live c → a0.toNat + a1.toNat * blockSizeOf c ≤ 2 ^ 64 →
        ¬ SomeUnreadable s.mem a0.toNat (a1.toNat * blockSizeOf c) → t.rc = 0)) ∧
    (∃ t, exec (instrOf c .finish a0 a1 a2) s = .next t ∧
      (¬ s.live c → t.rc = 2) ∧
      (s.live c → tailLimitOf c < a1.toNat → t.rc = 3) ∧
      (s.live c → a1.toNat ≤ tailLimitOf c → 2 ^ 64 < a0.toNat + a1.toNat → t.rc = 4) ∧
      (s.live c → a1.toNat ≤ tailLimitOf c → a0.toNat + a1.toNat ≤ 2 ^ 64 →
        SomeUnreadable s.mem a0.toNat a1.toNat → t.rc = 5) ∧
      (s.live c → a1.toNat ≤ tailLimitOf c → a0.toNat + a1.toNat ≤ 2 ^ 64 →
        ¬ SomeUnreadable s.mem a0.toNat a1.toNat → t.rc = 0))

/-- R273 (a) to (e). THE MODEL'S OWN CHOICE (assumption 3): the clause that the HashState is kept, which follows R273(d) over
R140 and U8. -/
def Obligations.FaultEntry : Prop :=
  (∀ (c : CoreId) (op : Operation) (a0 a1 a2 : Word64) (s t : State),
    exec (instrOf c op a0 a1 a2) s = .next t → t.rc ≠ 0 →
    t.phaseOf c = .faulted ∧
    (s.phaseOf c ≠ .faulted → (t.fcodeOf c).toNat = t.rc.toNat) ∧
    (s.phaseOf c = .faulted → t.fcodeOf c = s.fcodeOf c) ∧
    t.rdata = List.replicate 48 0 ∧
    (op ≠ .cycle ∨ t.rc ≠ 5 ∨ SomeUnreadable s.mem a0.toNat (blockSizeOf c) → SameHash c s t) ∧
    (op = .finish ∧ t.rc ≠ 2 → t.epi = List.replicate 256 0) ∧
    (op ≠ .finish ∨ t.rc = 2 → t.epi = s.epi) ∧
    (∀ d, d ≠ c → SameCore d s t) ∧ SameHostSide s t) ∧
  (∀ (s : State) (c : Command) (rest : List HostInput), s.inbox = .present c :: rest →
    (∃ e, decode c = .error e) →
    step s = .next { s with
      inbox := rest, cw := c.cw, a0 := c.a0, a1 := c.a1, a2 := c.a2, rc := 1, rdata := List.replicate 48 0 })

/-- R274, over every step of the machine. -/
def Obligations.OnlyEraseOrResetLeavesFaulted : Prop :=
  ∀ (s t : State) (c : CoreId), step s = .next t → s.phaseOf c = .faulted → t.phaseOf c ≠ .faulted →
    ClearedCore c t ∧
    ∃ rest, s.inbox = .reset :: rest ∨ (∃ w, s.inbox = .presentReset w :: rest) ∨
      ∃ w i, decode w = .ok i ∧ i.operation = .erase ∧ i.coreId = c ∧
        (s.inbox = .present w :: rest ∨ ∃ ws, s.inbox = .presentRaced w ws :: rest)

/-- R26. -/
def Obligations.FaultCodeRegister : Prop :=
  (∀ (i : Instr) (s t : State), exec i s = .next t →
    (s.phaseOf i.coreId ≠ .faulted → t.phaseOf i.coreId = .faulted →
      (t.fcodeOf i.coreId).toNat = t.rc.toNat) ∧
    (s.phaseOf i.coreId = .faulted → t.phaseOf i.coreId = .faulted → t.fcodeOf i.coreId = s.fcodeOf i.coreId) ∧
    (i.operation = .erase → t.fcodeOf i.coreId = 0) ∧
    (t.rc = 0 → i.operation ≠ .erase → t.fcodeOf i.coreId = s.fcodeOf i.coreId) ∧
    (s.Inv → ∀ c, t.phaseOf c ≠ .faulted → t.fcodeOf c = 0)) ∧
  (∀ (s : State) (rest : List HostInput),
    s.inbox = .reset :: rest ∨ (∃ w, s.inbox = .presentReset w :: rest) →
    ∃ t, step s = .next t ∧ ∀ c, t.fcodeOf c = 0) ∧
  (∀ (i : Instr) (s : State) (c : CoreId) (f : BitVec 3),
    ∃ t u, exec i s = .next t ∧ exec i (s.withFcode c f) = .next u ∧ u.withFcode c 0 = t.withFcode c 0)

/-- R41: hashes on different cores may be interleaved command by command in any order. The premise on `draws`, the model's
own count (assumption 3), keeps out only two commands that both draw an unspecified HashState: each draw has its own
number. -/
def Obligations.CommandsOfDifferentCoresCommute : Prop :=
  ∀ (i j : Instr) (s a b : State), i.coreId ≠ j.coreId → s.epi = List.replicate 256 0 →
    exec i s = .next a → exec j s = .next b → a.draws = s.draws ∨ b.draws = s.draws →
    ∃ ij ji, exec j a = .next ij ∧ exec i b = .next ji ∧
      ij.rc = b.rc ∧ ij.rdata = b.rdata ∧ ji.rc = a.rc ∧ ji.rdata = a.rdata ∧
      { ij with rc := 0, rdata := [] } = { ji with rc := 0, rdata := [] }

/-- R166 with R162, R163, R168 and the exchange order of R167. -/
def Obligations.RipemdCompressionRounds : Prop :=
  (∀ (i : Nat) (x y z : Word32),
    (i < 16 → ripemdF i x y z = x ^^^ y ^^^ z) ∧
    (16 ≤ i → i < 32 → ripemdF i x y z = (x &&& y) ||| (~~~x &&& z)) ∧
    (32 ≤ i → i < 48 → ripemdF i x y z = (x ||| ~~~y) ^^^ z) ∧
    (48 ≤ i → i < 64 → ripemdF i x y z = (x &&& z) ||| (y &&& ~~~z))) ∧
  (∀ j : Nat,
    (j < 16 → ripemdK j = 0x00000000 ∧ ripemdKK j = 0x50A28BE6) ∧
    (16 ≤ j → j < 32 → ripemdK j = 0x5A827999 ∧ ripemdKK j = 0x5C4DD124) ∧
    (32 ≤ j → j < 48 → ripemdK j = 0x6ED9EBA1 ∧ ripemdKK j = 0x6D703EF3) ∧
    (48 ≤ j → j < 64 → ripemdK j = 0x8F1BBCDC ∧ ripemdKK j = 0x00000000)) ∧
  ∀ (H : Hash8 32) (X : List Word32),
    ∃ A B C D AA BB CC DD : Nat → Word32,
      A 0 = H.h0 ∧ B 0 = H.h1 ∧ C 0 = H.h2 ∧ D 0 = H.h3 ∧
      AA 0 = H.h4 ∧ BB 0 = H.h5 ∧ CC 0 = H.h6 ∧ DD 0 = H.h7 ∧
      (∀ j, j < 64 →
        let T := rotl (A j + ripemdF j (B j) (C j) (D j) + X.getD (ripemdR.getD j 0) 0 + ripemdK j)
          (ripemdS.getD j 0)
        let TT := rotl (AA j + ripemdF (63 - j) (BB j) (CC j) (DD j) + X.getD (ripemdRR.getD j 0) 0 + ripemdKK j)
          (ripemdSS.getD j 0)
        (A (j + 1), AA (j + 1)) = (if j = 15 then (DD j, D j) else (D j, DD j)) ∧
        (B (j + 1), BB (j + 1)) = (if j = 31 then (TT, T) else (T, TT)) ∧
        (C (j + 1), CC (j + 1)) = (if j = 47 then (BB j, B j) else (B j, BB j)) ∧
        (D (j + 1), DD (j + 1)) = (if j = 63 then (CC j, C j) else (C j, CC j))) ∧
      compressRipemd256 H X =
        ⟨H.h0 + A 64, H.h1 + B 64, H.h2 + C 64, H.h3 + D 64,
          H.h4 + AA 64, H.h5 + BB 64, H.h6 + CC 64, H.h7 + DD 64⟩

/-- R164, R165. -/
def Obligations.RipemdTablesAreInRange : Prop :=
  ripemdR.length = 64 ∧ ripemdRR.length = 64 ∧ ripemdS.length = 64 ∧ ripemdSS.length = 64 ∧
  (∀ row ∈ List.range 4, ∀ x ∈ List.range 16,
    x ∈ (ripemdR.drop (16 * row)).take 16 ∧ x ∈ (ripemdRR.drop (16 * row)).take 16) ∧
  (∀ n ∈ ripemdS ++ ripemdSS, 5 ≤ n ∧ n ≤ 15)

/-- R192 to R194. -/
def Obligations.Sha1CompressionRounds : Prop :=
  ∀ (H : Hash5 32) (X : List Word32), X.length = 16 →
    ∃ (W : Nat → Word32) (a b c d e : Nat → Word32),
      (∀ j, j < 16 → some (W j) = X[j]?) ∧
      (∀ j, 16 ≤ j → j < 80 → W j = rotl (W (j - 3) ^^^ W (j - 8) ^^^ W (j - 14) ^^^ W (j - 16)) 1) ∧
      a 0 = H.h0 ∧ b 0 = H.h1 ∧ c 0 = H.h2 ∧ d 0 = H.h3 ∧ e 0 = H.h4 ∧
      (∀ t, t < 80 →
        (t < 20 → a (t + 1) =
          rotl (a t) 5 + ((b t &&& c t) ||| (~~~(b t) &&& d t)) + e t + 0x5A827999 + W t) ∧
        (20 ≤ t → t < 40 → a (t + 1) = rotl (a t) 5 + (b t ^^^ c t ^^^ d t) + e t + 0x6ED9EBA1 + W t) ∧
        (40 ≤ t → t < 60 → a (t + 1) =
          rotl (a t) 5 + ((b t &&& c t) ||| (b t &&& d t) ||| (c t &&& d t)) + e t + 0x8F1BBCDC + W t) ∧
        (60 ≤ t → a (t + 1) = rotl (a t) 5 + (b t ^^^ c t ^^^ d t) + e t + 0xCA62C1D6 + W t) ∧
        b (t + 1) = a t ∧ c (t + 1) = rotl (b t) 30 ∧ d (t + 1) = c t ∧ e (t + 1) = d t) ∧
      compressSha1 H X = ⟨H.h0 + a 80, H.h1 + b 80, H.h2 + c 80, H.h3 + d 80, H.h4 + e 80⟩

/-- R213 to R216. -/
def Obligations.Sha256CompressionRounds : Prop :=
  ∀ (H : Hash8 32) (X : List Word32), X.length = 16 →
    ∃ (W : Nat → Word32) (a b c d e f g h : Nat → Word32),
      (∀ t, t < 16 → some (W t) = X[t]?) ∧
      (∀ t, 16 ≤ t → t < 64 → W t =
        (rotr (W (t - 2)) 17 ^^^ rotr (W (t - 2)) 19 ^^^ (W (t - 2) >>> 10)) + W (t - 7) +
          (rotr (W (t - 15)) 7 ^^^ rotr (W (t - 15)) 18 ^^^ (W (t - 15) >>> 3)) + W (t - 16)) ∧
      a 0 = H.h0 ∧ b 0 = H.h1 ∧ c 0 = H.h2 ∧ d 0 = H.h3 ∧ e 0 = H.h4 ∧ f 0 = H.h5 ∧ g 0 = H.h6 ∧ h 0 = H.h7 ∧
      (∀ t, t < 64 →
        let T1 := h t + (rotr (e t) 6 ^^^ rotr (e t) 11 ^^^ rotr (e t) 25) +
          ((e t &&& f t) ^^^ (~~~(e t) &&& g t)) + sha256K.getD t 0 + W t
        let T2 := (rotr (a t) 2 ^^^ rotr (a t) 13 ^^^ rotr (a t) 22) +
          ((a t &&& b t) ^^^ (a t &&& c t) ^^^ (b t &&& c t))
        h (t + 1) = g t ∧ g (t + 1) = f t ∧ f (t + 1) = e t ∧ e (t + 1) = d t + T1 ∧
        d (t + 1) = c t ∧ c (t + 1) = b t ∧ b (t + 1) = a t ∧ a (t + 1) = T1 + T2) ∧
      compressSha256 H X =
        ⟨H.h0 + a 64, H.h1 + b 64, H.h2 + c 64, H.h3 + d 64,
          H.h4 + e 64, H.h5 + f 64, H.h6 + g 64, H.h7 + h 64⟩

/-- R233 to R236. -/
def Obligations.Sha384CompressionRounds : Prop :=
  ∀ (H : Hash8 64) (X : List Word64), X.length = 16 →
    ∃ (W : Nat → Word64) (a b c d e f g h : Nat → Word64),
      (∀ t, t < 16 → some (W t) = X[t]?) ∧
      (∀ t, 16 ≤ t → t < 80 → W t =
        (rotr (W (t - 2)) 19 ^^^ rotr (W (t - 2)) 61 ^^^ (W (t - 2) >>> 6)) + W (t - 7) +
          (rotr (W (t - 15)) 1 ^^^ rotr (W (t - 15)) 8 ^^^ (W (t - 15) >>> 7)) + W (t - 16)) ∧
      a 0 = H.h0 ∧ b 0 = H.h1 ∧ c 0 = H.h2 ∧ d 0 = H.h3 ∧ e 0 = H.h4 ∧ f 0 = H.h5 ∧ g 0 = H.h6 ∧ h 0 = H.h7 ∧
      (∀ t, t < 80 →
        let T1 := h t + (rotr (e t) 14 ^^^ rotr (e t) 18 ^^^ rotr (e t) 41) +
          ((e t &&& f t) ^^^ (~~~(e t) &&& g t)) + sha384K.getD t 0 + W t
        let T2 := (rotr (a t) 28 ^^^ rotr (a t) 34 ^^^ rotr (a t) 39) +
          ((a t &&& b t) ^^^ (a t &&& c t) ^^^ (b t &&& c t))
        h (t + 1) = g t ∧ g (t + 1) = f t ∧ f (t + 1) = e t ∧ e (t + 1) = d t + T1 ∧
        d (t + 1) = c t ∧ c (t + 1) = b t ∧ b (t + 1) = a t ∧ a (t + 1) = T1 + T2) ∧
      compressSha384 H X =
        ⟨H.h0 + a 80, H.h1 + b 80, H.h2 + c 80, H.h3 + d 80,
          H.h4 + e 80, H.h5 + f 80, H.h6 + g 80, H.h7 + h 80⟩

/-- R211, R212, R231, R232: the origin of the constants, which fixes each of them. -/
def Obligations.Sha2ConstantsAreRootFractions : Prop :=
  sha256K.length = 64 ∧ sha384K.length = 80 ∧
  (∀ t ∈ List.range 64, RootFraction 3 32 (firstPrimes.getD t 0) (sha256K.getD t 0).toNat) ∧
  (∀ t ∈ List.range 80, RootFraction 3 64 (firstPrimes.getD t 0) (sha384K.getD t 0).toNat) ∧
  (∀ i ∈ List.range 8, RootFraction 2 32 (firstPrimes.getD i 0) (sha256Iv.toList.getD i 0).toNat) ∧
  (∀ i ∈ List.range 8, RootFraction 2 64 (firstPrimes.getD (8 + i) 0) (sha384Iv.toList.getD i 0).toNat) ∧
  sha256Alg.iv = sha256Iv ∧ sha384Alg.iv = sha384Iv

/-- R195. -/
def Obligations.Sha1WorkedExample : Prop :=
  blockWords (beWord 32) abcBlock32 = [0x61626380, 0, 0, 0, 0, 0, 0, 0, 0, 0, 0, 0, 0, 0, 0, 0x00000018] ∧
  (sha1Schedule (blockWords (beWord 32) abcBlock32) 64).getD 16 0 = 0xc2c4c700 ∧
  sha1Rounds sha1Iv (blockWords (beWord 32) abcBlock32) 1 =
    ⟨0x0116fc33, 0x67452301, 0x7bf36ae2, 0x98badcfe, 0x10325476⟩ ∧
  compressSha1 sha1Iv (blockWords (beWord 32) abcBlock32) =
    ⟨0xa9993e36, 0x4706816a, 0xba3e2571, 0x7850c26c, 0x9cd0d89d⟩

/-- R217. -/
def Obligations.Sha256WorkedExample : Prop :=
  blockWords (beWord 32) abcBlock32 = [0x61626380, 0, 0, 0, 0, 0, 0, 0, 0, 0, 0, 0, 0, 0, 0, 0x00000018] ∧
  (sha2Schedule sha256Params (blockWords (beWord 32) abcBlock32) 48).getD 16 0 = 0x61626380 ∧
  (sha2Schedule sha256Params (blockWords (beWord 32) abcBlock32) 48).getD 17 0 = 0x000f0000 ∧
  sha2Rounds sha256Params sha256Iv (blockWords (beWord 32) abcBlock32) 1 =
    ⟨0x5d6aebcd, 0x6a09e667, 0xbb67ae85, 0x3c6ef372, 0xfa2a4622, 0x510e527f, 0x9b05688c, 0x1f83d9ab⟩ ∧
  sha2Rounds sha256Params sha256Iv (blockWords (beWord 32) abcBlock32) 64 =
    ⟨0x506e3058, 0xd39a2165, 0x04d24d6c, 0xb85e2ce9, 0x5ef50f24, 0xfb121210, 0x948d25b6, 0x961f4894⟩ ∧
  compressSha256 sha256Iv (blockWords (beWord 32) abcBlock32) =
    ⟨0xba7816bf, 0x8f01cfea, 0x414140de, 0x5dae2223, 0xb00361a3, 0x96177a9c, 0xb410ff61, 0xf20015ad⟩

/-- R237. -/
def Obligations.Sha384WorkedExample : Prop :=
  blockWords (beWord 64) abcBlock64 =
    [0x6162638000000000, 0, 0, 0, 0, 0, 0, 0, 0, 0, 0, 0, 0, 0, 0, 0x0000000000000018] ∧
  (sha2Schedule sha384Params (blockWords (beWord 64) abcBlock64) 64).getD 16 0 = 0x6162638000000000 ∧
  (sha2Schedule sha384Params (blockWords (beWord 64) abcBlock64) 64).getD 17 0 = 0x00030000000000c0 ∧
  sha2Rounds sha384Params sha384Iv (blockWords (beWord 64) abcBlock64) 1 =
    ⟨0x470994ad30873f88, sha384Iv.h0, sha384Iv.h1, sha384Iv.h2,
      0xbd03f724be6075f9, sha384Iv.h4, sha384Iv.h5, sha384Iv.h6⟩ ∧
  compressSha384 sha384Iv (blockWords (beWord 64) abcBlock64) =
    ⟨0xcb00753f45a35e8b, 0xb5a03d699ac65007, 0x272c32ab0eded163, 0x1a8b605a43ff5bed,
      0x8086072ba1e7cc23, 0x58baeca134c825a7, 0xa303edfdf3b89cd7, 0x0c66918ece57ba15⟩

/-- The examples of R171 and R172; `C1`'s exchange order is what makes them come out. -/
def Obligations.RipemdFinishExample : Prop :=
  let s : State := { State.reset with
    ripemd256 := ⟨ripemdIv, .active, 0⟩
    mem := ⟨[(0x1000, 0x61), (0x1001, 0x62), (0x1002, 0x63)], [⟨0x1000, 0x1003⟩]⟩ }
  let h : Hash8 32 :=
    ⟨0x226ebdaf, 0xbb8c9d8b, 0x2dcaf5ce, 0xa1dbe603, 0x7dbcc00a, 0x0e68e4cb, 0xe9d2421e, 0x659b4575⟩
  exec (.ripemd256Finish 0x1000 3 3) s = .next { s with ripemd256 := ⟨h, .final, 0⟩ } ∧
  exec .ripemd256Digest { s with ripemd256 := ⟨h, .final, 0⟩ } = .next { s with
    ripemd256 := ⟨h, .final, 0⟩
    rdata :=
      [0xaf, 0xbd, 0x6e, 0x22, 0x8b, 0x9d, 0x8c, 0xbb, 0xce, 0xf5, 0xca, 0x2d, 0x03, 0xe6, 0xdb, 0xa1] ++
      [0x0a, 0xc0, 0xbc, 0x7d, 0xcb, 0xe4, 0x68, 0x0e, 0x1e, 0x42, 0xd2, 0xe9, 0x75, 0x45, 0x9b, 0x65] ++
      List.replicate 16 0 }
end

