-- ==== Sys2Proof/Laws/Decode.lean ====
section
/-! SUPPORT. What the decoder answers, said once: the command of a core and an operation, when a command word decodes and to
what. -/

namespace Sys2Proof

@[simp] theorem instrOf_coreId (c : CoreId) (op : Operation) (a0 a1 a2 : Word64) :
    (instrOf c op a0 a1 a2).coreId = c := by
  cases c <;> cases op <;> rfl

@[simp] theorem instrOf_operation (c : CoreId) (op : Operation) (a0 a1 a2 : Word64) :
    (instrOf c op a0 a1 a2).operation = op := by
  cases c <;> cases op <;> rfl

/-- Clear reserved fields and a defined operation: the command is that of the core and the operation (R102). -/
theorem decode_ok {c : Command} {op : Operation} (h2 : rsv2Field c.cw = 0) (h1 : rsv1Field c.cw = 0)
    (ho : operationOf (opField c.cw) = some op) :
    decode c = .ok (instrOf (coreOf (algField c.cw)) op c.a0 c.a1 c.a2) := by
  simp [decode, h2, h1, ho]

/-- What a command that decodes looks like (R102). -/
theorem decode_cases {c : Command} {i : Instr} (h : decode c = .ok i) :
    ∃ op, rsv2Field c.cw = 0 ∧ rsv1Field c.cw = 0 ∧ operationOf (opField c.cw) = some op ∧
      i = instrOf (coreOf (algField c.cw)) op c.a0 c.a1 c.a2 := by
  simp only [decode] at h
  split at h
  · simp at h
  · split at h
    · simp at h
    · split at h
      · simp at h
      · rename_i h2 h1 _ op ho
        simp only [ne_eq, Decidable.not_not] at h2 h1
        exact ⟨op, h2, h1, ho, (Except.ok.inj h).symm⟩

end Sys2Proof
end

