-- ==== Sys2Proof/Laws/Exec.lean ====
section
/-! SUPPORT. What `exec` answers for each command, as the shared procedure of its operation, and what each input of the host
makes of a step. -/

namespace Sys2Proof.Machine

@[simp] theorem exec_ripemd256Init (s : State) :
    exec .ripemd256Init s = .next (s.putRipemd256 (initCommand ripemd256Alg s.viewRipemd256)) := rfl

@[simp] theorem exec_ripemd256Cycle (a0 a1 : Word64) (s : State) :
    exec (.ripemd256Cycle a0 a1) s = .next (s.putRipemd256 (cycleCommand ripemd256Alg a0 a1 s.viewRipemd256)) := rfl

@[simp] theorem exec_ripemd256Finish (a0 a1 a2 : Word64) (s : State) :
    exec (.ripemd256Finish a0 a1 a2) s = .next (s.putRipemd256 (finishCommand ripemd256Alg a0 a1 a2 s.viewRipemd256)) := rfl

@[simp] theorem exec_ripemd256Digest (s : State) :
    exec .ripemd256Digest s = .next (s.putRipemd256 (digestCommand ripemd256Alg s.viewRipemd256)) := rfl

@[simp] theorem exec_ripemd256Erase (s : State) :
    exec .ripemd256Erase s = .next (s.putRipemd256 (eraseCommand ripemd256Alg s.viewRipemd256)) := rfl

@[simp] theorem exec_sha1Init (s : State) :
    exec .sha1Init s = .next (s.putSha1 (initCommand sha1Alg s.viewSha1)) := rfl

@[simp] theorem exec_sha1Cycle (a0 a1 : Word64) (s : State) :
    exec (.sha1Cycle a0 a1) s = .next (s.putSha1 (cycleCommand sha1Alg a0 a1 s.viewSha1)) := rfl

@[simp] theorem exec_sha1Finish (a0 a1 a2 : Word64) (s : State) :
    exec (.sha1Finish a0 a1 a2) s = .next (s.putSha1 (finishCommand sha1Alg a0 a1 a2 s.viewSha1)) := rfl

@[simp] theorem exec_sha1Digest (s : State) :
    exec .sha1Digest s = .next (s.putSha1 (digestCommand sha1Alg s.viewSha1)) := rfl

@[simp] theorem exec_sha1Erase (s : State) :
    exec .sha1Erase s = .next (s.putSha1 (eraseCommand sha1Alg s.viewSha1)) := rfl

@[simp] theorem exec_sha256Init (s : State) :
    exec .sha256Init s = .next (s.putSha256 (initCommand sha256Alg s.viewSha256)) := rfl

@[simp] theorem exec_sha256Cycle (a0 a1 : Word64) (s : State) :
    exec (.sha256Cycle a0 a1) s = .next (s.putSha256 (cycleCommand sha256Alg a0 a1 s.viewSha256)) := rfl

@[simp] theorem exec_sha256Finish (a0 a1 a2 : Word64) (s : State) :
    exec (.sha256Finish a0 a1 a2) s = .next (s.putSha256 (finishCommand sha256Alg a0 a1 a2 s.viewSha256)) := rfl

@[simp] theorem exec_sha256Digest (s : State) :
    exec .sha256Digest s = .next (s.putSha256 (digestCommand sha256Alg s.viewSha256)) := rfl

@[simp] theorem exec_sha256Erase (s : State) :
    exec .sha256Erase s = .next (s.putSha256 (eraseCommand sha256Alg s.viewSha256)) := rfl

@[simp] theorem exec_sha384Init (s : State) :
    exec .sha384Init s = .next (s.putSha384 (initCommand sha384Alg s.viewSha384)) := rfl

@[simp] theorem exec_sha384Cycle (a0 a1 : Word64) (s : State) :
    exec (.sha384Cycle a0 a1) s = .next (s.putSha384 (cycleCommand sha384Alg a0 a1 s.viewSha384)) := rfl

@[simp] theorem exec_sha384Finish (a0 a1 a2 : Word64) (s : State) :
    exec (.sha384Finish a0 a1 a2) s = .next (s.putSha384 (finishCommand sha384Alg a0 a1 a2 s.viewSha384)) := rfl

@[simp] theorem exec_sha384Digest (s : State) :
    exec .sha384Digest s = .next (s.putSha384 (digestCommand sha384Alg s.viewSha384)) := rfl

@[simp] theorem exec_sha384Erase (s : State) :
    exec .sha384Erase s = .next (s.putSha384 (eraseCommand sha384Alg s.viewSha384)) := rfl

theorem step_idle {s : State} (h : s.inbox = []) : step s = .next s := by
  simp [step, takeInput, h]

theorem step_input {s : State} {x : HostInput} {rest : List HostInput} (h : s.inbox = x :: rest) :
    step s = landInput x (s.setInbox rest) := by
  simp [step, takeInput, h]

theorem acceptCommand_ok {s : State} {i : Instr} (h : decode s.port = .ok i) : acceptCommand s = exec i s := by
  simp [acceptCommand, h]

theorem acceptCommand_error {s : State} {e : DecodeError} (h : decode s.port = .error e) :
    acceptCommand s = .next s.illegalCommand := by
  simp [acceptCommand, h]

theorem landInput_present (c : Command) (s : State) :
    landInput (.present c) s = acceptCommand (s.setPort c) := rfl

theorem landInput_presentRaced (c : Command) (ws : List (Word64 × Byte)) (s : State) :
    landInput (.presentRaced c ws) s = leaveRace s.mem ws (acceptCommand ((s.enterRace ws).setPort c)) := rfl

/-- A host write changes message memory alone. -/
theorem landInput_write (a : Word64) (b : Byte) (s : State) :
    landInput (.write a b) s = .next (s.setMem (s.mem.write a.toNat b)) := rfl

/-- A change of `Readable` changes nothing else. -/
theorem landInput_setReadable (ranges : List Region) (s : State) :
    landInput (.setReadable ranges) s = .next (s.setMem (s.mem.setReadable ranges)) := rfl

theorem landInput_presentReset (c : Command) (s : State) :
    landInput (.presentReset c) s = .next (s.setPort c).resetBlock := rfl

end Sys2Proof.Machine
end

