-- ==== Sys2Proof/Laws/Memory.lean ====
section
/-! SUPPORT. The laws of message memory and of `Readable`: reading after writing and after changing `Readable`, the canonical
form kept by every operation, and how `memRead` splits. -/

namespace Sys2Proof.Machine

/-! ### Cells -/

@[simp] theorem cellByte_nil (a : Nat) : cellByte [] a = unlistedByte := rfl

theorem cellByte_putCell_same (l : List Host.Cell) (a : Nat) (b : Byte) : cellByte (putCell l a b) a = b := by
  induction l with
  | nil => simp [putCell, cellByte]
  | cons c rest ih =>
    simp only [putCell]
    split
    · simp [cellByte]
    · split
      · simp [cellByte]
      · rename_i h1 h2
        simp [cellByte, ih, Ne.symm h2]

theorem cellByte_putCell_other (l : List Host.Cell) {a x : Nat} (b : Byte) (h : x ≠ a) :
    cellByte (putCell l a b) x = cellByte l x := by
  induction l with
  | nil => simp [putCell, cellByte, Ne.symm h]
  | cons c rest ih =>
    simp only [putCell]
    split
    · simp [cellByte, Ne.symm h]
    · split
      · rename_i h1 h2
        simp [cellByte, Ne.symm h, ← h2]
      · simp [cellByte, ih]

theorem cellByte_eraseCell_other (l : List Host.Cell) {a x : Nat} (h : x ≠ a) :
    cellByte (eraseCell l a) x = cellByte l x := by
  induction l with
  | nil => rfl
  | cons c rest ih =>
    simp only [eraseCell]
    split
    · rename_i h1
      simp [cellByte, ← h1, Ne.symm h]
    · simp [cellByte, ih]

/-- What a canonical list says of its head and its tail. -/
theorem cellsWf_cons_iff (c : Host.Cell) (l : List Host.Cell) :
    cellsWf (c :: l) = true ↔
      c.1 < Config.addrSpace ∧ c.2 ≠ unlistedByte ∧ cellsWf l = true ∧ ∀ d ∈ l, c.1 < d.1 := by
  induction l generalizing c with
  | nil => simp [cellsWf]
  | cons d rest ih =>
    simp only [cellsWf, Bool.and_eq_true, decide_eq_true_eq, List.mem_cons, forall_eq_or_imp]
    constructor
    · rintro ⟨⟨h1, h2⟩, h3⟩
      obtain ⟨g1, -, -, g4⟩ := (ih d).mp h3
      exact ⟨Nat.lt_trans h1 g1, h2, h3, h1, fun e he => Nat.lt_trans h1 (g4 e he)⟩
    · rintro ⟨-, h2, h3, h1, -⟩
      exact ⟨⟨h1, h2⟩, h3⟩

theorem mem_putCell {l : List Host.Cell} {a : Nat} {b : Byte} {d : Host.Cell} (h : d ∈ putCell l a b) :
    d = (a, b) ∨ d ∈ l := by
  induction l with
  | nil => simpa [putCell] using h
  | cons c rest ih =>
    simp only [putCell] at h
    split at h
    · simpa using h
    · split at h
      · exact (List.mem_cons.mp h).imp_right (List.mem_cons_of_mem _)
      · rcases List.mem_cons.mp h with rfl | h
        · exact .inr (by simp)
        · exact (ih h).imp_right (List.mem_cons_of_mem _)

theorem mem_eraseCell {l : List Host.Cell} {a : Nat} {d : Host.Cell} (h : d ∈ eraseCell l a) : d ∈ l := by
  induction l with
  | nil => simp [eraseCell] at h
  | cons c rest ih =>
    simp only [eraseCell] at h
    split at h
    · exact List.mem_cons_of_mem _ h
    · rcases List.mem_cons.mp h with rfl | h
      · simp
      · exact List.mem_cons_of_mem _ (ih h)

/-- A byte other than the unlisted one, at an address that exists, keeps the canonical form. -/
theorem putCell_wf {l : List Host.Cell} {a : Nat} {b : Byte} (h : cellsWf l = true) (ha : a < Config.addrSpace)
    (hb : b ≠ unlistedByte) : cellsWf (putCell l a b) = true := by
  induction l with
  | nil => simp [putCell, cellsWf, ha, hb]
  | cons c rest ih =>
    obtain ⟨h1, h2, h3, h4⟩ := (cellsWf_cons_iff c rest).mp h
    simp only [putCell]
    split
    · rename_i hlt
      refine (cellsWf_cons_iff _ _).mpr ⟨ha, hb, h, fun d hd => ?_⟩
      rcases List.mem_cons.mp hd with rfl | hd
      · exact hlt
      · exact Nat.lt_trans hlt (h4 d hd)
    · split
      · rename_i heq
        exact (cellsWf_cons_iff _ _).mpr ⟨ha, hb, h3, fun d hd => by simpa [heq] using h4 d hd⟩
      · refine (cellsWf_cons_iff _ _).mpr ⟨h1, h2, ih h3, fun d hd => ?_⟩
        rcases mem_putCell hd with rfl | hd
        · show c.1 < a
          omega
        · exact h4 d hd

/-- Unlisting an address keeps the canonical form. -/
theorem eraseCell_wf {l : List Host.Cell} (a : Nat) (h : cellsWf l = true) : cellsWf (eraseCell l a) = true := by
  induction l with
  | nil => rfl
  | cons c rest ih =>
    obtain ⟨h1, h2, h3, h4⟩ := (cellsWf_cons_iff c rest).mp h
    simp only [eraseCell]
    split
    · exact h3
    · exact (cellsWf_cons_iff _ _).mpr ⟨h1, h2, ih h3, fun d hd => h4 d (mem_eraseCell hd)⟩

/-- No canonical list holds a byte at an address below all of its own but the unlisted one. -/
theorem cellByte_of_lt {l : List Host.Cell} {a : Nat} (h : ∀ d ∈ l, a < d.1) : cellByte l a = unlistedByte := by
  induction l with
  | nil => rfl
  | cons c rest ih =>
    have hc := h c (by simp)
    simp [cellByte, Nat.ne_of_gt hc, ih fun d hd => h d (List.mem_cons_of_mem _ hd)]

theorem cellByte_eraseCell_same {l : List Host.Cell} (a : Nat) (h : cellsWf l = true) :
    cellByte (eraseCell l a) a = unlistedByte := by
  induction l with
  | nil => rfl
  | cons c rest ih =>
    obtain ⟨-, -, h3, h4⟩ := (cellsWf_cons_iff c rest).mp h
    simp only [eraseCell]
    split
    · rename_i heq
      exact cellByte_of_lt fun d hd => heq ▸ h4 d hd
    · rename_i hne
      simp [cellByte, Ne.symm hne, ih h3]

/-! ### Ranges -/

@[simp] theorem regionsHold_nil (a : Nat) : regionsHold [] a = false := rfl

theorem regionsHold_iff (l : List Region) (a : Nat) :
    regionsHold l a = true ↔ ∃ r ∈ l, r.first ≤ a ∧ a < r.past := by
  simp [regionsHold]

/-- What a canonical list of ranges says of its head and its tail. -/
theorem regionsWf_cons_iff (r : Region) (l : List Region) :
    regionsWf (r :: l) = true ↔
      r.first < r.past ∧ r.past ≤ Config.addrSpace ∧ regionsWf l = true ∧ ∀ q ∈ l, r.past < q.first := by
  induction l generalizing r with
  | nil => simp [regionsWf]
  | cons q rest ih =>
    simp only [regionsWf, Bool.and_eq_true, decide_eq_true_eq, List.mem_cons, forall_eq_or_imp]
    constructor
    · rintro ⟨⟨h1, h2⟩, h3⟩
      obtain ⟨g1, g2, -, g4⟩ := (ih q).mp h3
      exact ⟨h1, by omega, h3, h2, fun e he => by have := g4 e he; omega⟩
    · rintro ⟨h1, -, h3, h2, -⟩
      exact ⟨⟨h1, h2⟩, h3⟩

/-- Joining a range adds exactly its addresses. -/
theorem regionsHold_joinRegion (r : Region) (l : List Region) (a : Nat) :
    regionsHold (joinRegion r l) a = true ↔ (r.first ≤ a ∧ a < r.past) ∨ regionsHold l a = true := by
  induction l generalizing r with
  | nil => simp [joinRegion, regionsHold_iff]
  | cons q rest ih =>
    have hcons : ∀ (q : Region) (l : List Region),
        regionsHold (q :: l) a = true ↔ (q.first ≤ a ∧ a < q.past) ∨ regionsHold l a = true := by
      simp [regionsHold_iff]
    simp only [joinRegion]
    split
    · simp [hcons]
    · split
      · rw [hcons, ih, hcons]
        tauto
      · rw [ih, hcons, ← or_assoc]
        refine or_congr_left ?_
        simp only
        omega

/-- A lower bound of the ranges and of a joined one stays one. -/
theorem joinRegion_above {r : Region} {l : List Region} {b : Nat} (hr : b < r.first) (hl : ∀ q ∈ l, b < q.first) :
    ∀ q ∈ joinRegion r l, b < q.first := by
  induction l generalizing r with
  | nil => simpa [joinRegion] using hr
  | cons p rest ih =>
    have hp : b < p.first := hl p (by simp)
    have hrest : ∀ q ∈ rest, b < q.first := fun q hq => hl q (List.mem_cons_of_mem _ hq)
    simp only [joinRegion]
    split
    · simpa [hr] using hl
    · split
      · intro q hq
        rcases List.mem_cons.mp hq with rfl | hq
        · exact hp
        · exact ih hr hrest q hq
      · exact ih (by simp only; omega) hrest

/-- Joining a range that is not empty and exists keeps the canonical form. -/
theorem joinRegion_wf {r : Region} {l : List Region} (hr : r.first < r.past) (hp : r.past ≤ Config.addrSpace)
    (h : regionsWf l = true) : regionsWf (joinRegion r l) = true := by
  induction l generalizing r with
  | nil => simp [joinRegion, regionsWf, hr, hp]
  | cons q rest ih =>
    obtain ⟨h1, h2, h3, h4⟩ := (regionsWf_cons_iff q rest).mp h
    simp only [joinRegion]
    split
    · rename_i hlt
      refine (regionsWf_cons_iff _ _).mpr ⟨hr, hp, h, fun p hp => ?_⟩
      rcases List.mem_cons.mp hp with rfl | hp
      · exact hlt
      · have := h4 p hp
        omega
    · split
      · rename_i hgap
        exact (regionsWf_cons_iff _ _).mpr ⟨h1, h2, ih hr hp h3, joinRegion_above hgap h4⟩
      · exact ih (by simp only; omega) (by simp only; omega) h3

/-- Adding a range adds exactly those of its addresses that exist. -/
theorem regionsHold_addRegion (r : Region) (l : List Region) (a : Nat) :
    regionsHold (addRegion r l) a = true ↔
      (a < Config.addrSpace ∧ r.first ≤ a ∧ a < r.past) ∨ regionsHold l a = true := by
  simp only [addRegion]
  split
  · rw [regionsHold_joinRegion]
    refine or_congr_left ?_
    simp only
    omega
  · constructor
    · exact .inr
    · rintro (⟨h1, h2, h3⟩ | h)
      · omega
      · exact h

theorem addRegion_wf (r : Region) {l : List Region} (h : regionsWf l = true) : regionsWf (addRegion r l) = true := by
  simp only [addRegion]
  split
  · exact joinRegion_wf ‹_› (Nat.min_le_right _ _) h
  · exact h

/-! ### Memory -/

theorem Memory.wf_iff (m : Memory) : m.wf = true ↔ cellsWf m.cells = true ∧ regionsWf m.regions = true := by
  simp [Memory.wf]

theorem Memory.read_eq (m : Memory) (a : Nat) : m.read a = if m.readable a then some (m.byte a) else none := rfl

@[simp] theorem Memory.read_isSome (m : Memory) (a : Nat) : (m.read a).isSome = m.readable a := by
  cases h : m.readable a <;> simp [Memory.read, h]

theorem Memory.read_eq_some {m : Memory} {a : Nat} {b : Byte} :
    m.read a = some b ↔ m.readable a = true ∧ m.byte a = b := by
  simp [Memory.read]

theorem Memory.read_eq_none {m : Memory} {a : Nat} : m.read a = none ↔ m.readable a = false := by
  simp [Memory.read]

/-- A write leaves `Readable` alone (R63). -/
@[simp] theorem Memory.readable_write (m : Memory) (a x : Nat) (b : Byte) : (m.write a b).readable x = m.readable x := rfl

theorem Memory.byte_write_same {m : Memory} (a : Nat) (b : Byte) (h : m.wf = true) : (m.write a b).byte a = b := by
  by_cases hb : b = unlistedByte
  · simpa [Memory.write, Memory.byte, hb] using cellByte_eraseCell_same a (m.wf_iff.mp h).1
  · simpa [Memory.write, Memory.byte, hb] using cellByte_putCell_same m.cells a b

theorem Memory.byte_write_other (m : Memory) {a x : Nat} (b : Byte) (h : x ≠ a) : (m.write a b).byte x = m.byte x := by
  by_cases hb : b = unlistedByte
  · simpa [Memory.write, Memory.byte, hb] using cellByte_eraseCell_other m.cells h
  · simpa [Memory.write, Memory.byte, hb] using cellByte_putCell_other m.cells b h

/-- A write at an address that exists keeps the canonical form. -/
theorem Memory.write_wf {m : Memory} {a : Nat} (b : Byte) (h : m.wf = true) (ha : a < Config.addrSpace) :
    (m.write a b).wf = true := by
  obtain ⟨hc, hr⟩ := m.wf_iff.mp h
  by_cases hb : b = unlistedByte
  · simpa [Memory.write, Memory.wf, hb, hr] using eraseCell_wf a hc
  · simpa [Memory.write, Memory.wf, hb, hr] using putCell_wf hc ha hb

/-- The memory after `setReadable` has the same bytes. -/
@[simp] theorem Memory.byte_setReadable (m : Memory) (ranges : List Region) (a : Nat) :
    (m.setReadable ranges).byte a = m.byte a := rfl

/-- Exactly the addresses of the ranges that exist are readable after `setReadable`. -/
theorem Memory.readable_setReadable (m : Memory) (ranges : List Region) (a : Nat) :
    (m.setReadable ranges).readable a = true ↔ a < Config.addrSpace ∧ ∃ r ∈ ranges, r.first ≤ a ∧ a < r.past := by
  show regionsHold (ranges.foldr addRegion []) a = true ↔ _
  induction ranges with
  | nil => simp
  | cons r rest ih =>
    rw [List.foldr_cons, regionsHold_addRegion, ih]
    simp only [List.mem_cons, exists_eq_or_imp]
    tauto

theorem Memory.setReadable_wf {m : Memory} (ranges : List Region) (h : m.wf = true) :
    (m.setReadable ranges).wf = true := by
  refine (Memory.wf_iff _).mpr ⟨(m.wf_iff.mp h).1, ?_⟩
  show regionsWf (ranges.foldr addRegion []) = true
  induction ranges with
  | nil => rfl
  | cons r rest ih => exact addRegion_wf r ih

/-- A list of host writes keeps the canonical form. -/
theorem Memory.writeAll_wf {m : Memory} (ws : List (Word64 × Byte)) (h : m.wf = true) :
    (Memory.writeAll m ws).wf = true := by
  induction ws generalizing m with
  | nil => exact h
  | cons w ws ih => exact ih (Memory.write_wf w.2 h w.1.isLt)

@[simp] theorem Memory.readable_writeAll (m : Memory) (ws : List (Word64 × Byte)) (a : Nat) :
    (m.writeAll ws).readable a = m.readable a := by
  induction ws generalizing m with
  | nil => rfl
  | cons w ws ih => simpa [Memory.writeAll] using ih (m.write w.1.toNat w.2)

/-- What the block may see during a race is in canonical form. -/
theorem raceView_wf {m : Memory} (n : Nat) (ws : List (Word64 × Byte)) (h : m.wf = true) :
    (raceView m n ws).wf = true := by
  induction ws generalizing m n with
  | nil => exact h
  | cons w ws ih =>
    simp only [raceView]
    split
    · exact ih _ (Memory.write_wf w.2 h w.1.isLt)
    · exact ih _ h

@[simp] theorem readable_raceView (m : Memory) (n : Nat) (ws : List (Word64 × Byte)) (a : Nat) :
    (raceView m n ws).readable a = m.readable a := by
  induction ws generalizing m n with
  | nil => rfl
  | cons w ws ih =>
    simp only [raceView]
    split
    · simpa using ih (m.write w.1.toNat w.2) (n + 1)
    · exact ih _ _

theorem Memory.allReadable_wf : Memory.allReadable.wf = true := by decide

/-- On a platform without read faults every address is readable (R10). -/
theorem Memory.readable_allReadable {a : Nat} (h : a < Config.addrSpace) : Memory.allReadable.readable a = true := by
  simpa [Memory.readable, Memory.allReadable, regionsHold_iff] using h

@[simp] theorem memRead_zero (m : Memory) (addr : Nat) : memRead m addr 0 = some [] := rfl

/-- What `memRead` answers has the length asked for. -/
theorem memRead_length {m : Memory} {addr n : Nat} {bs : List Byte} (h : memRead m addr n = some bs) :
    bs.length = n := by
  induction n generalizing addr bs with
  | zero => simp [memRead] at h; simp [← h]
  | succ n ih =>
    simp only [memRead] at h
    split at h
    · simp at h
    · split at h
      · simp at h
      · rename_i hb _ _ hrest
        simp only [Option.some.injEq] at h
        subst h
        simp [ih hrest]

/-- A read of `n + k` bytes is a read of `n` bytes and then of `k` more. -/
theorem memRead_add (m : Memory) (addr n k : Nat) :
    memRead m addr (n + k) =
      (memRead m addr n).bind fun a => (memRead m (addr + n) k).map fun b => a ++ b := by
  induction n generalizing addr with
  | zero => simp
  | succ n ih =>
    rw [show n + 1 + k = (n + k) + 1 by omega]
    simp only [memRead]
    cases hm : m.read addr with
    | none => simp
    | some x =>
      rw [ih (addr + 1)]
      cases h1 : memRead m (addr + 1) n with
      | none => simp
      | some a =>
        rw [show addr + 1 + n = addr + (n + 1) by omega]
        cases memRead m (addr + (n + 1)) k <;> simp

end Sys2Proof.Machine
end

