-- ==== Sys2Proof/Laws/Ops.lean ====
section
/-! SUPPORT. What the shared procedures can do, each said once: the parts of a response and of a raised fault, the cases of
each of the five operations with their guards, and the length of the epilogue buffer. -/

namespace Sys2Proof.Machine

variable {α : Type}

@[simp] theorem respondOk_regs (v : View α) (k : CoreRegs α) : (respondOk v k).regs = k := rfl
@[simp] theorem respondOk_epi (v : View α) (k : CoreRegs α) : (respondOk v k).epi = v.epi := rfl
@[simp] theorem respondOk_draws (v : View α) (k : CoreRegs α) : (respondOk v k).draws = v.draws := rfl
@[simp] theorem respondOk_rc (v : View α) (k : CoreRegs α) : (respondOk v k).rc = 0 := rfl
@[simp] theorem respondOk_rdata (v : View α) (k : CoreRegs α) : (respondOk v k).rdata = noData := rfl

@[simp] theorem raise_h (c : Cause) (v : View α) : (raise c v).regs.h = v.regs.h := rfl
@[simp] theorem raise_phase (c : Cause) (v : View α) : (raise c v).regs.phase = .faulted := rfl
@[simp] theorem raise_fcode (c : Cause) (v : View α) :
    (raise c v).regs.fcode = fcodeAfter v.regs.phase v.regs.fcode c := rfl
@[simp] theorem raise_epi (c : Cause) (v : View α) : (raise c v).epi = v.epi := rfl
@[simp] theorem raise_draws (c : Cause) (v : View α) : (raise c v).draws = v.draws := rfl
@[simp] theorem raise_rc (c : Cause) (v : View α) : (raise c v).rc = causeRc c := rfl
@[simp] theorem raise_rdata (c : Cause) (v : View α) : (raise c v).rdata = noData := rfl

@[simp] theorem wiped_regs (v : View α) : (wiped v).regs = v.regs := rfl
@[simp] theorem wiped_epi (v : View α) : (wiped v).epi = List.replicate 256 0 := rfl
@[simp] theorem wiped_draws (v : View α) : (wiped v).draws = v.draws := rfl
@[simp] theorem wiped_mem (v : View α) : (wiped v).mem = v.mem := rfl

@[simp] theorem noData_length : noData.length = 48 := rfl

/-- A digest of at most 48 bytes fills `RDATA` exactly. -/
theorem padResponse_length {d : List Byte} (h : d.length ≤ 48) : (padResponse d).length = 48 := by
  simp only [padResponse, List.length_append, List.length_replicate, Config.rdataSize]
  omega

/-- INIT: the initial value in IDLE, `BadPhase` in the other phases. -/
theorem initCommand_cases (A : Alg α) (v : View α) :
    (admits .init v.regs.phase = true ∧
      initCommand A v = respondOk v { v.regs with h := A.iv, phase := .active }) ∨
    (admits .init v.regs.phase = false ∧ initCommand A v = raise .badPhase v) := by
  cases h : admits .init v.regs.phase <;> simp [initCommand, h, phaseAfter]

/-- CYCLE: `BadPhase`, `AddrRange`, `ReadFault` at block `k`, or the blocks absorbed. -/
theorem cycleCommand_cases (A : Alg α) (ptr count : Word64) (v : View α) :
    (admits .cycle v.regs.phase = false ∧ cycleCommand A ptr count v = raise .badPhase v) ∨
    (admits .cycle v.regs.phase = true ∧ rangeFits ptr.toNat (count.toNat * A.bs) = false ∧
      cycleCommand A ptr count v = raise .addrRange v) ∨
    (∃ k, admits .cycle v.regs.phase = true ∧ rangeFits ptr.toNat (count.toNat * A.bs) = true ∧
      absorbBlocks A v.mem ptr.toNat 0 count.toNat v.regs.h = .error k ∧
      cycleCommand A ptr count v = raise .readFault (faultedAtBlock A k v)) ∨
    (∃ h, admits .cycle v.regs.phase = true ∧ rangeFits ptr.toNat (count.toNat * A.bs) = true ∧
      absorbBlocks A v.mem ptr.toNat 0 count.toNat v.regs.h = .ok h ∧
      cycleCommand A ptr count v = respondOk v { v.regs with h := h }) := by
  cases hp : admits .cycle v.regs.phase
  · exact .inl (by simp [cycleCommand, hp])
  · cases hr : rangeFits ptr.toNat (count.toNat * A.bs)
    · exact .inr (.inl (by simp [cycleCommand, hp, hr]))
    · cases ha : absorbBlocks A v.mem ptr.toNat 0 count.toNat v.regs.h with
      | error k => exact .inr (.inr (.inl ⟨k, by simp [cycleCommand, hp, hr, ha]⟩))
      | ok h => exact .inr (.inr (.inr ⟨h, by simp [cycleCommand, hp, hr, ha, phaseAfter]⟩))

/-- FINISH: `BadPhase`, `TailTooLong`, `AddrRange`, `ReadFault`, or the tail padded and absorbed. -/
theorem finishCommand_cases (A : Alg α) (tail size total : Word64) (v : View α) :
    (admits .finish v.regs.phase = false ∧ finishCommand A tail size total v = raise .badPhase v) ∨
    (admits .finish v.regs.phase = true ∧ tailLimit A < size.toNat ∧
      finishCommand A tail size total v = raise .tailTooLong (wiped v)) ∨
    (admits .finish v.regs.phase = true ∧ size.toNat ≤ tailLimit A ∧
      rangeFits tail.toNat size.toNat = false ∧
      finishCommand A tail size total v = raise .addrRange (wiped v)) ∨
    (admits .finish v.regs.phase = true ∧ size.toNat ≤ tailLimit A ∧
      rangeFits tail.toNat size.toNat = true ∧ memRead v.mem tail.toNat size.toNat = none ∧
      finishCommand A tail size total v = raise .readFault (wiped v)) ∨
    (∃ t, admits .finish v.regs.phase = true ∧ size.toNat ≤ tailLimit A ∧
      rangeFits tail.toNat size.toNat = true ∧ memRead v.mem tail.toNat size.toNat = some t ∧
      finishCommand A tail size total v = finishWithTail A t total v) := by
  cases hp : admits .finish v.regs.phase
  · exact .inl (by simp [finishCommand, hp])
  · by_cases hs : tailLimit A < size.toNat
    · exact .inr (.inl (by simp [finishCommand, hp, hs]))
    · have hle : size.toNat ≤ tailLimit A := Nat.le_of_not_lt hs
      cases hr : rangeFits tail.toNat size.toNat
      · exact .inr (.inr (.inl (by simp [finishCommand, hp, hs, hle, hr])))
      · cases hm : memRead v.mem tail.toNat size.toNat with
        | none => exact .inr (.inr (.inr (.inl (by simp [finishCommand, hp, hs, hle, hr, hm]))))
        | some t => exact .inr (.inr (.inr (.inr ⟨t, by simp [finishCommand, hp, hs, hle, hr, hm]⟩)))

/-- DIGEST: the digest in ACTIVE and FINAL, `BadPhase` in the other phases. -/
theorem digestCommand_cases (A : Alg α) (v : View α) :
    (admits .digest v.regs.phase = true ∧
      digestCommand A v = { respondOk v v.regs with rdata := padResponse (digestBytes A v.regs.h) }) ∨
    (admits .digest v.regs.phase = false ∧ digestCommand A v = raise .badPhase v) := by
  cases h : admits .digest v.regs.phase <;> simp [digestCommand, h, phaseAfter]

@[simp] theorem absorbBlocks_zero (A : Alg α) (m : Memory) (ptr k : Nat) (h : α) :
    absorbBlocks A m ptr k 0 h = .ok h := rfl

theorem absorbBlocks_succ_some (A : Alg α) {m : Memory} {ptr k n : Nat} {h : α} {b : List Byte}
    (hb : memRead m (ptr + k * A.bs) A.bs = some b) :
    absorbBlocks A m ptr k (n + 1) h = absorbBlocks A m ptr (k + 1) n (A.absorb h b) := by
  simp [absorbBlocks, hb]

theorem absorbBlocks_succ_none (A : Alg α) {m : Memory} {ptr k n : Nat} {h : α}
    (hb : memRead m (ptr + k * A.bs) A.bs = none) :
    absorbBlocks A m ptr k (n + 1) h = .error k := by
  simp [absorbBlocks, hb]

/-- Storing into the epilogue buffer keeps its length. -/
@[simp] theorem storeBytes_length (epi : List Byte) (off : Nat) (b : List Byte) :
    (storeBytes epi off b).length = epi.length := by
  induction b generalizing epi off with
  | nil => rfl
  | cons x xs ih => simp [storeBytes, ih]

/-- Storing a byte sequence that fits replaces exactly the bytes from `off` on (R124). -/
theorem storeBytes_eq (epi : List Byte) (off : Nat) (b : List Byte) (h : off + b.length ≤ epi.length) :
    storeBytes epi off b = epi.take off ++ b ++ epi.drop (off + b.length) := by
  induction b generalizing epi off with
  | nil => simp [storeBytes]
  | cons x xs ih =>
    simp only [List.length_cons] at h
    have hd : off + 1 + xs.length = off + (xs.length + 1) := by omega
    have hl : (epi.take off).length = off := by simp; omega
    rw [storeBytes, ih _ _ (by simp; omega), List.set_eq_take_append_cons_drop, if_pos (by omega), hd, List.take_append,
      List.drop_append, hl, List.take_of_length_le (by omega), List.drop_of_length_le (l := epi.take off) (by omega)]
    simp [hd]

/-- The built epilogue is as long as the buffer. -/
theorem buildEpilogue_length (A : Alg α) (t : List Byte) (total : Word64) (epi : List Byte) :
    (buildEpilogue A t total epi).length = epi.length := by
  simp [buildEpilogue]

/-- A fault at the first block keeps everything (R273(d)). -/
@[simp] theorem faultedAtBlock_zero (A : Alg α) (v : View α) : faultedAtBlock A 0 v = v := rfl

@[simp] theorem faultedAtBlock_epi (A : Alg α) (k : Nat) (v : View α) : (faultedAtBlock A k v).epi = v.epi := by
  simp only [faultedAtBlock]; split <;> rfl

@[simp] theorem faultedAtBlock_phase (A : Alg α) (k : Nat) (v : View α) :
    (faultedAtBlock A k v).regs.phase = v.regs.phase := by
  simp only [faultedAtBlock]; split <;> rfl

@[simp] theorem faultedAtBlock_fcode (A : Alg α) (k : Nat) (v : View α) :
    (faultedAtBlock A k v).regs.fcode = v.regs.fcode := by
  simp only [faultedAtBlock]; split <;> rfl

end Sys2Proof.Machine
end

