-- ==== Sys2Proof/Laws/PerInstr.lean ====
section
/-! SUPPORT. One lemma per command for what is said of every command as syntax: its encoding is a well-formed command. -/

namespace Sys2Proof.Laws.EncodedWord

/-- The word the encoder writes has clear reserved fields and a defined operation (`30_encoding.md` R91, R92). -/
def Statement (i : Instr) : Prop := (encode i).wellFormed = true

/-- Well-formedness looks at the command word alone. -/
theorem of_cw {i : Instr} (w : Word32) (hw : (encode i).cw = w)
    (h : (Command.mk w 0 0 0).wellFormed = true) : Statement i := by
  simpa [Statement, Command.wellFormed, Command.highReservedClear, Command.lowReservedClear,
    Command.operationDefined, hw] using h

theorem ripemd256Init : Statement .ripemd256Init := of_cw 0x00000010 rfl (by decide)

theorem ripemd256Cycle (a0 a1 : Word64) : Statement (.ripemd256Cycle a0 a1) := of_cw 0x00000020 rfl (by decide)

theorem ripemd256Finish (a0 a1 a2 : Word64) : Statement (.ripemd256Finish a0 a1 a2) := of_cw 0x00000030 rfl (by decide)

theorem ripemd256Digest : Statement .ripemd256Digest := of_cw 0x00000040 rfl (by decide)

theorem ripemd256Erase : Statement .ripemd256Erase := of_cw 0x00000050 rfl (by decide)

theorem sha1Init : Statement .sha1Init := of_cw 0x00000011 rfl (by decide)

theorem sha1Cycle (a0 a1 : Word64) : Statement (.sha1Cycle a0 a1) := of_cw 0x00000021 rfl (by decide)

theorem sha1Finish (a0 a1 a2 : Word64) : Statement (.sha1Finish a0 a1 a2) := of_cw 0x00000031 rfl (by decide)

theorem sha1Digest : Statement .sha1Digest := of_cw 0x00000041 rfl (by decide)

theorem sha1Erase : Statement .sha1Erase := of_cw 0x00000051 rfl (by decide)

theorem sha256Init : Statement .sha256Init := of_cw 0x00000012 rfl (by decide)

theorem sha256Cycle (a0 a1 : Word64) : Statement (.sha256Cycle a0 a1) := of_cw 0x00000022 rfl (by decide)

theorem sha256Finish (a0 a1 a2 : Word64) : Statement (.sha256Finish a0 a1 a2) := of_cw 0x00000032 rfl (by decide)

theorem sha256Digest : Statement .sha256Digest := of_cw 0x00000042 rfl (by decide)

theorem sha256Erase : Statement .sha256Erase := of_cw 0x00000052 rfl (by decide)

theorem sha384Init : Statement .sha384Init := of_cw 0x00000013 rfl (by decide)

theorem sha384Cycle (a0 a1 : Word64) : Statement (.sha384Cycle a0 a1) := of_cw 0x00000023 rfl (by decide)

theorem sha384Finish (a0 a1 a2 : Word64) : Statement (.sha384Finish a0 a1 a2) := of_cw 0x00000033 rfl (by decide)

theorem sha384Digest : Statement .sha384Digest := of_cw 0x00000043 rfl (by decide)

theorem sha384Erase : Statement .sha384Erase := of_cw 0x00000053 rfl (by decide)

end Sys2Proof.Laws.EncodedWord
end

