-- ==== Sys2Proof/Laws/State.lean ====
section
/-! SUPPORT. Each field of the state after each named update of it, true by definition, and the views and effects of the four
cores. -/

namespace Sys2Proof.Machine

@[simp] theorem State.resetOn_ripemd256 (m : Memory) : (State.resetOn m).ripemd256 = .cleared (Hash8.zero 32) := rfl
@[simp] theorem State.resetOn_sha1 (m : Memory) : (State.resetOn m).sha1 = .cleared (Hash5.zero 32) := rfl
@[simp] theorem State.resetOn_sha256 (m : Memory) : (State.resetOn m).sha256 = .cleared (Hash8.zero 32) := rfl
@[simp] theorem State.resetOn_sha384 (m : Memory) : (State.resetOn m).sha384 = .cleared (Hash8.zero 64) := rfl
@[simp] theorem State.resetOn_epi (m : Memory) : (State.resetOn m).epi = List.replicate 256 0 := rfl
@[simp] theorem State.resetOn_rc (m : Memory) : (State.resetOn m).rc = 0 := rfl
@[simp] theorem State.resetOn_rdata (m : Memory) : (State.resetOn m).rdata = List.replicate 48 0 := rfl
@[simp] theorem State.resetOn_mem (m : Memory) : (State.resetOn m).mem = m := rfl
@[simp] theorem State.resetOn_inbox (m : Memory) : (State.resetOn m).inbox = [] := rfl
@[simp] theorem State.resetOn_draws (m : Memory) : (State.resetOn m).draws = 0 := rfl

@[simp] theorem State.setPort_ripemd256 (s : State) (c : Command) : (s.setPort c).ripemd256 = s.ripemd256 := rfl
@[simp] theorem State.setPort_sha1 (s : State) (c : Command) : (s.setPort c).sha1 = s.sha1 := rfl
@[simp] theorem State.setPort_sha256 (s : State) (c : Command) : (s.setPort c).sha256 = s.sha256 := rfl
@[simp] theorem State.setPort_sha384 (s : State) (c : Command) : (s.setPort c).sha384 = s.sha384 := rfl
@[simp] theorem State.setPort_epi (s : State) (c : Command) : (s.setPort c).epi = s.epi := rfl
@[simp] theorem State.setPort_cw (s : State) (c : Command) : (s.setPort c).cw = c.cw := rfl
@[simp] theorem State.setPort_a0 (s : State) (c : Command) : (s.setPort c).a0 = c.a0 := rfl
@[simp] theorem State.setPort_a1 (s : State) (c : Command) : (s.setPort c).a1 = c.a1 := rfl
@[simp] theorem State.setPort_a2 (s : State) (c : Command) : (s.setPort c).a2 = c.a2 := rfl
@[simp] theorem State.setPort_rc (s : State) (c : Command) : (s.setPort c).rc = s.rc := rfl
@[simp] theorem State.setPort_rdata (s : State) (c : Command) : (s.setPort c).rdata = s.rdata := rfl
@[simp] theorem State.setPort_mem (s : State) (c : Command) : (s.setPort c).mem = s.mem := rfl
@[simp] theorem State.setPort_inbox (s : State) (c : Command) : (s.setPort c).inbox = s.inbox := rfl
@[simp] theorem State.setPort_draws (s : State) (c : Command) : (s.setPort c).draws = s.draws := rfl

@[simp] theorem State.setInbox_ripemd256 (s : State) (l : List HostInput) : (s.setInbox l).ripemd256 = s.ripemd256 := rfl
@[simp] theorem State.setInbox_sha1 (s : State) (l : List HostInput) : (s.setInbox l).sha1 = s.sha1 := rfl
@[simp] theorem State.setInbox_sha256 (s : State) (l : List HostInput) : (s.setInbox l).sha256 = s.sha256 := rfl
@[simp] theorem State.setInbox_sha384 (s : State) (l : List HostInput) : (s.setInbox l).sha384 = s.sha384 := rfl
@[simp] theorem State.setInbox_epi (s : State) (l : List HostInput) : (s.setInbox l).epi = s.epi := rfl
@[simp] theorem State.setInbox_cw (s : State) (l : List HostInput) : (s.setInbox l).cw = s.cw := rfl
@[simp] theorem State.setInbox_a0 (s : State) (l : List HostInput) : (s.setInbox l).a0 = s.a0 := rfl
@[simp] theorem State.setInbox_a1 (s : State) (l : List HostInput) : (s.setInbox l).a1 = s.a1 := rfl
@[simp] theorem State.setInbox_a2 (s : State) (l : List HostInput) : (s.setInbox l).a2 = s.a2 := rfl
@[simp] theorem State.setInbox_rc (s : State) (l : List HostInput) : (s.setInbox l).rc = s.rc := rfl
@[simp] theorem State.setInbox_rdata (s : State) (l : List HostInput) : (s.setInbox l).rdata = s.rdata := rfl
@[simp] theorem State.setInbox_mem (s : State) (l : List HostInput) : (s.setInbox l).mem = s.mem := rfl
@[simp] theorem State.setInbox_inbox (s : State) (l : List HostInput) : (s.setInbox l).inbox = l := rfl
@[simp] theorem State.setInbox_draws (s : State) (l : List HostInput) : (s.setInbox l).draws = s.draws := rfl

@[simp] theorem State.setMem_ripemd256 (s : State) (m : Memory) : (s.setMem m).ripemd256 = s.ripemd256 := rfl
@[simp] theorem State.setMem_sha1 (s : State) (m : Memory) : (s.setMem m).sha1 = s.sha1 := rfl
@[simp] theorem State.setMem_sha256 (s : State) (m : Memory) : (s.setMem m).sha256 = s.sha256 := rfl
@[simp] theorem State.setMem_sha384 (s : State) (m : Memory) : (s.setMem m).sha384 = s.sha384 := rfl
@[simp] theorem State.setMem_epi (s : State) (m : Memory) : (s.setMem m).epi = s.epi := rfl
@[simp] theorem State.setMem_cw (s : State) (m : Memory) : (s.setMem m).cw = s.cw := rfl
@[simp] theorem State.setMem_a0 (s : State) (m : Memory) : (s.setMem m).a0 = s.a0 := rfl
@[simp] theorem State.setMem_a1 (s : State) (m : Memory) : (s.setMem m).a1 = s.a1 := rfl
@[simp] theorem State.setMem_a2 (s : State) (m : Memory) : (s.setMem m).a2 = s.a2 := rfl
@[simp] theorem State.setMem_rc (s : State) (m : Memory) : (s.setMem m).rc = s.rc := rfl
@[simp] theorem State.setMem_rdata (s : State) (m : Memory) : (s.setMem m).rdata = s.rdata := rfl
@[simp] theorem State.setMem_mem (s : State) (m : Memory) : (s.setMem m).mem = m := rfl
@[simp] theorem State.setMem_inbox (s : State) (m : Memory) : (s.setMem m).inbox = s.inbox := rfl
@[simp] theorem State.setMem_draws (s : State) (m : Memory) : (s.setMem m).draws = s.draws := rfl

@[simp] theorem State.enterRace_ripemd256 (s : State) (ws : List (Word64 × Byte)) : (s.enterRace ws).ripemd256 = s.ripemd256 := rfl
@[simp] theorem State.enterRace_sha1 (s : State) (ws : List (Word64 × Byte)) : (s.enterRace ws).sha1 = s.sha1 := rfl
@[simp] theorem State.enterRace_sha256 (s : State) (ws : List (Word64 × Byte)) : (s.enterRace ws).sha256 = s.sha256 := rfl
@[simp] theorem State.enterRace_sha384 (s : State) (ws : List (Word64 × Byte)) : (s.enterRace ws).sha384 = s.sha384 := rfl
@[simp] theorem State.enterRace_epi (s : State) (ws : List (Word64 × Byte)) : (s.enterRace ws).epi = s.epi := rfl
@[simp] theorem State.enterRace_cw (s : State) (ws : List (Word64 × Byte)) : (s.enterRace ws).cw = s.cw := rfl
@[simp] theorem State.enterRace_a0 (s : State) (ws : List (Word64 × Byte)) : (s.enterRace ws).a0 = s.a0 := rfl
@[simp] theorem State.enterRace_a1 (s : State) (ws : List (Word64 × Byte)) : (s.enterRace ws).a1 = s.a1 := rfl
@[simp] theorem State.enterRace_a2 (s : State) (ws : List (Word64 × Byte)) : (s.enterRace ws).a2 = s.a2 := rfl
@[simp] theorem State.enterRace_rc (s : State) (ws : List (Word64 × Byte)) : (s.enterRace ws).rc = s.rc := rfl
@[simp] theorem State.enterRace_rdata (s : State) (ws : List (Word64 × Byte)) : (s.enterRace ws).rdata = s.rdata := rfl
@[simp] theorem State.enterRace_mem (s : State) (ws : List (Word64 × Byte)) : (s.enterRace ws).mem = raceView s.mem s.draws ws := rfl
@[simp] theorem State.enterRace_inbox (s : State) (ws : List (Word64 × Byte)) : (s.enterRace ws).inbox = s.inbox := rfl
@[simp] theorem State.enterRace_draws (s : State) (ws : List (Word64 × Byte)) : (s.enterRace ws).draws = s.draws + ws.length := rfl

@[simp] theorem State.illegalCommand_ripemd256 (s : State) : (s.illegalCommand).ripemd256 = s.ripemd256 := rfl
@[simp] theorem State.illegalCommand_sha1 (s : State) : (s.illegalCommand).sha1 = s.sha1 := rfl
@[simp] theorem State.illegalCommand_sha256 (s : State) : (s.illegalCommand).sha256 = s.sha256 := rfl
@[simp] theorem State.illegalCommand_sha384 (s : State) : (s.illegalCommand).sha384 = s.sha384 := rfl
@[simp] theorem State.illegalCommand_epi (s : State) : (s.illegalCommand).epi = s.epi := rfl
@[simp] theorem State.illegalCommand_cw (s : State) : (s.illegalCommand).cw = s.cw := rfl
@[simp] theorem State.illegalCommand_a0 (s : State) : (s.illegalCommand).a0 = s.a0 := rfl
@[simp] theorem State.illegalCommand_a1 (s : State) : (s.illegalCommand).a1 = s.a1 := rfl
@[simp] theorem State.illegalCommand_a2 (s : State) : (s.illegalCommand).a2 = s.a2 := rfl
@[simp] theorem State.illegalCommand_rc (s : State) : (s.illegalCommand).rc = 1 := rfl
@[simp] theorem State.illegalCommand_rdata (s : State) : (s.illegalCommand).rdata = noData := rfl
@[simp] theorem State.illegalCommand_mem (s : State) : (s.illegalCommand).mem = s.mem := rfl
@[simp] theorem State.illegalCommand_inbox (s : State) : (s.illegalCommand).inbox = s.inbox := rfl
@[simp] theorem State.illegalCommand_draws (s : State) : (s.illegalCommand).draws = s.draws := rfl

@[simp] theorem State.resetBlock_ripemd256 (s : State) : (s.resetBlock).ripemd256 = .cleared (Hash8.zero 32) := rfl
@[simp] theorem State.resetBlock_sha1 (s : State) : (s.resetBlock).sha1 = .cleared (Hash5.zero 32) := rfl
@[simp] theorem State.resetBlock_sha256 (s : State) : (s.resetBlock).sha256 = .cleared (Hash8.zero 32) := rfl
@[simp] theorem State.resetBlock_sha384 (s : State) : (s.resetBlock).sha384 = .cleared (Hash8.zero 64) := rfl
@[simp] theorem State.resetBlock_epi (s : State) : (s.resetBlock).epi = List.replicate 256 0 := rfl
@[simp] theorem State.resetBlock_cw (s : State) : (s.resetBlock).cw = s.cw := rfl
@[simp] theorem State.resetBlock_a0 (s : State) : (s.resetBlock).a0 = s.a0 := rfl
@[simp] theorem State.resetBlock_a1 (s : State) : (s.resetBlock).a1 = s.a1 := rfl
@[simp] theorem State.resetBlock_a2 (s : State) : (s.resetBlock).a2 = s.a2 := rfl
@[simp] theorem State.resetBlock_rc (s : State) : (s.resetBlock).rc = 0 := rfl
@[simp] theorem State.resetBlock_rdata (s : State) : (s.resetBlock).rdata = noData := rfl
@[simp] theorem State.resetBlock_mem (s : State) : (s.resetBlock).mem = s.mem := rfl
@[simp] theorem State.resetBlock_inbox (s : State) : (s.resetBlock).inbox = s.inbox := rfl
@[simp] theorem State.resetBlock_draws (s : State) : (s.resetBlock).draws = s.draws := rfl

@[simp] theorem State.putRipemd256_ripemd256 (s : State) (e : Effect (Hash8 32)) : (s.putRipemd256 e).ripemd256 = e.regs := rfl
@[simp] theorem State.putRipemd256_sha1 (s : State) (e : Effect (Hash8 32)) : (s.putRipemd256 e).sha1 = s.sha1 := rfl
@[simp] theorem State.putRipemd256_sha256 (s : State) (e : Effect (Hash8 32)) : (s.putRipemd256 e).sha256 = s.sha256 := rfl
@[simp] theorem State.putRipemd256_sha384 (s : State) (e : Effect (Hash8 32)) : (s.putRipemd256 e).sha384 = s.sha384 := rfl
@[simp] theorem State.putRipemd256_epi (s : State) (e : Effect (Hash8 32)) : (s.putRipemd256 e).epi = e.epi := rfl
@[simp] theorem State.putRipemd256_cw (s : State) (e : Effect (Hash8 32)) : (s.putRipemd256 e).cw = s.cw := rfl
@[simp] theorem State.putRipemd256_a0 (s : State) (e : Effect (Hash8 32)) : (s.putRipemd256 e).a0 = s.a0 := rfl
@[simp] theorem State.putRipemd256_a1 (s : State) (e : Effect (Hash8 32)) : (s.putRipemd256 e).a1 = s.a1 := rfl
@[simp] theorem State.putRipemd256_a2 (s : State) (e : Effect (Hash8 32)) : (s.putRipemd256 e).a2 = s.a2 := rfl
@[simp] theorem State.putRipemd256_rc (s : State) (e : Effect (Hash8 32)) : (s.putRipemd256 e).rc = e.rc := rfl
@[simp] theorem State.putRipemd256_rdata (s : State) (e : Effect (Hash8 32)) : (s.putRipemd256 e).rdata = e.rdata := rfl
@[simp] theorem State.putRipemd256_mem (s : State) (e : Effect (Hash8 32)) : (s.putRipemd256 e).mem = s.mem := rfl
@[simp] theorem State.putRipemd256_inbox (s : State) (e : Effect (Hash8 32)) : (s.putRipemd256 e).inbox = s.inbox := rfl
@[simp] theorem State.putRipemd256_draws (s : State) (e : Effect (Hash8 32)) : (s.putRipemd256 e).draws = e.draws := rfl

@[simp] theorem State.viewRipemd256_regs (s : State) : s.viewRipemd256.regs = s.ripemd256 := rfl
@[simp] theorem State.viewRipemd256_epi (s : State) : s.viewRipemd256.epi = s.epi := rfl
@[simp] theorem State.viewRipemd256_draws (s : State) : s.viewRipemd256.draws = s.draws := rfl
@[simp] theorem State.viewRipemd256_mem (s : State) : s.viewRipemd256.mem = s.mem := rfl

@[simp] theorem State.putSha1_ripemd256 (s : State) (e : Effect (Hash5 32)) : (s.putSha1 e).ripemd256 = s.ripemd256 := rfl
@[simp] theorem State.putSha1_sha1 (s : State) (e : Effect (Hash5 32)) : (s.putSha1 e).sha1 = e.regs := rfl
@[simp] theorem State.putSha1_sha256 (s : State) (e : Effect (Hash5 32)) : (s.putSha1 e).sha256 = s.sha256 := rfl
@[simp] theorem State.putSha1_sha384 (s : State) (e : Effect (Hash5 32)) : (s.putSha1 e).sha384 = s.sha384 := rfl
@[simp] theorem State.putSha1_epi (s : State) (e : Effect (Hash5 32)) : (s.putSha1 e).epi = e.epi := rfl
@[simp] theorem State.putSha1_cw (s : State) (e : Effect (Hash5 32)) : (s.putSha1 e).cw = s.cw := rfl
@[simp] theorem State.putSha1_a0 (s : State) (e : Effect (Hash5 32)) : (s.putSha1 e).a0 = s.a0 := rfl
@[simp] theorem State.putSha1_a1 (s : State) (e : Effect (Hash5 32)) : (s.putSha1 e).a1 = s.a1 := rfl
@[simp] theorem State.putSha1_a2 (s : State) (e : Effect (Hash5 32)) : (s.putSha1 e).a2 = s.a2 := rfl
@[simp] theorem State.putSha1_rc (s : State) (e : Effect (Hash5 32)) : (s.putSha1 e).rc = e.rc := rfl
@[simp] theorem State.putSha1_rdata (s : State) (e : Effect (Hash5 32)) : (s.putSha1 e).rdata = e.rdata := rfl
@[simp] theorem State.putSha1_mem (s : State) (e : Effect (Hash5 32)) : (s.putSha1 e).mem = s.mem := rfl
@[simp] theorem State.putSha1_inbox (s : State) (e : Effect (Hash5 32)) : (s.putSha1 e).inbox = s.inbox := rfl
@[simp] theorem State.putSha1_draws (s : State) (e : Effect (Hash5 32)) : (s.putSha1 e).draws = e.draws := rfl

@[simp] theorem State.viewSha1_regs (s : State) : s.viewSha1.regs = s.sha1 := rfl
@[simp] theorem State.viewSha1_epi (s : State) : s.viewSha1.epi = s.epi := rfl
@[simp] theorem State.viewSha1_draws (s : State) : s.viewSha1.draws = s.draws := rfl
@[simp] theorem State.viewSha1_mem (s : State) : s.viewSha1.mem = s.mem := rfl

@[simp] theorem State.putSha256_ripemd256 (s : State) (e : Effect (Hash8 32)) : (s.putSha256 e).ripemd256 = s.ripemd256 := rfl
@[simp] theorem State.putSha256_sha1 (s : State) (e : Effect (Hash8 32)) : (s.putSha256 e).sha1 = s.sha1 := rfl
@[simp] theorem State.putSha256_sha256 (s : State) (e : Effect (Hash8 32)) : (s.putSha256 e).sha256 = e.regs := rfl
@[simp] theorem State.putSha256_sha384 (s : State) (e : Effect (Hash8 32)) : (s.putSha256 e).sha384 = s.sha384 := rfl
@[simp] theorem State.putSha256_epi (s : State) (e : Effect (Hash8 32)) : (s.putSha256 e).epi = e.epi := rfl
@[simp] theorem State.putSha256_cw (s : State) (e : Effect (Hash8 32)) : (s.putSha256 e).cw = s.cw := rfl
@[simp] theorem State.putSha256_a0 (s : State) (e : Effect (Hash8 32)) : (s.putSha256 e).a0 = s.a0 := rfl
@[simp] theorem State.putSha256_a1 (s : State) (e : Effect (Hash8 32)) : (s.putSha256 e).a1 = s.a1 := rfl
@[simp] theorem State.putSha256_a2 (s : State) (e : Effect (Hash8 32)) : (s.putSha256 e).a2 = s.a2 := rfl
@[simp] theorem State.putSha256_rc (s : State) (e : Effect (Hash8 32)) : (s.putSha256 e).rc = e.rc := rfl
@[simp] theorem State.putSha256_rdata (s : State) (e : Effect (Hash8 32)) : (s.putSha256 e).rdata = e.rdata := rfl
@[simp] theorem State.putSha256_mem (s : State) (e : Effect (Hash8 32)) : (s.putSha256 e).mem = s.mem := rfl
@[simp] theorem State.putSha256_inbox (s : State) (e : Effect (Hash8 32)) : (s.putSha256 e).inbox = s.inbox := rfl
@[simp] theorem State.putSha256_draws (s : State) (e : Effect (Hash8 32)) : (s.putSha256 e).draws = e.draws := rfl

@[simp] theorem State.viewSha256_regs (s : State) : s.viewSha256.regs = s.sha256 := rfl
@[simp] theorem State.viewSha256_epi (s : State) : s.viewSha256.epi = s.epi := rfl
@[simp] theorem State.viewSha256_draws (s : State) : s.viewSha256.draws = s.draws := rfl
@[simp] theorem State.viewSha256_mem (s : State) : s.viewSha256.mem = s.mem := rfl

@[simp] theorem State.putSha384_ripemd256 (s : State) (e : Effect (Hash8 64)) : (s.putSha384 e).ripemd256 = s.ripemd256 := rfl
@[simp] theorem State.putSha384_sha1 (s : State) (e : Effect (Hash8 64)) : (s.putSha384 e).sha1 = s.sha1 := rfl
@[simp] theorem State.putSha384_sha256 (s : State) (e : Effect (Hash8 64)) : (s.putSha384 e).sha256 = s.sha256 := rfl
@[simp] theorem State.putSha384_sha384 (s : State) (e : Effect (Hash8 64)) : (s.putSha384 e).sha384 = e.regs := rfl
@[simp] theorem State.putSha384_epi (s : State) (e : Effect (Hash8 64)) : (s.putSha384 e).epi = e.epi := rfl
@[simp] theorem State.putSha384_cw (s : State) (e : Effect (Hash8 64)) : (s.putSha384 e).cw = s.cw := rfl
@[simp] theorem State.putSha384_a0 (s : State) (e : Effect (Hash8 64)) : (s.putSha384 e).a0 = s.a0 := rfl
@[simp] theorem State.putSha384_a1 (s : State) (e : Effect (Hash8 64)) : (s.putSha384 e).a1 = s.a1 := rfl
@[simp] theorem State.putSha384_a2 (s : State) (e : Effect (Hash8 64)) : (s.putSha384 e).a2 = s.a2 := rfl
@[simp] theorem State.putSha384_rc (s : State) (e : Effect (Hash8 64)) : (s.putSha384 e).rc = e.rc := rfl
@[simp] theorem State.putSha384_rdata (s : State) (e : Effect (Hash8 64)) : (s.putSha384 e).rdata = e.rdata := rfl
@[simp] theorem State.putSha384_mem (s : State) (e : Effect (Hash8 64)) : (s.putSha384 e).mem = s.mem := rfl
@[simp] theorem State.putSha384_inbox (s : State) (e : Effect (Hash8 64)) : (s.putSha384 e).inbox = s.inbox := rfl
@[simp] theorem State.putSha384_draws (s : State) (e : Effect (Hash8 64)) : (s.putSha384 e).draws = e.draws := rfl

@[simp] theorem State.viewSha384_regs (s : State) : s.viewSha384.regs = s.sha384 := rfl
@[simp] theorem State.viewSha384_epi (s : State) : s.viewSha384.epi = s.epi := rfl
@[simp] theorem State.viewSha384_draws (s : State) : s.viewSha384.draws = s.draws := rfl
@[simp] theorem State.viewSha384_mem (s : State) : s.viewSha384.mem = s.mem := rfl

@[simp] theorem State.port_setPort (s : State) (c : Command) : (s.setPort c).port = c := rfl

/-- Reset is a fixed point: the reset input leaves the reset state as it is. -/
theorem State.resetBlock_reset : State.reset.resetBlock = State.reset := rfl

end Sys2Proof.Machine
end

