-- ==== Sys2Proof/Tests/Slice0.lean ====
section
/-! SUPPORT. The model's own tests. Expected values are the spec's: the worked examples of files 41 to 44, the derived vectors
of files 95 to 98, or words written out from the encoding tables of `30_encoding.md`. The witnesses at the end show,
for every statement with hypotheses, a concrete state and operands that meet all of them. -/

namespace Sys2Proof.Tests

open Sys2Proof Sys2Proof.Machine

/-! ### Helpers -/

/-- The next state, where there is one. -/
def nextOf : Host.Outcome State Fault Refusal → Option State
  | .next t => some t
  | .fault _ => none
  | .refused _ => none

/-- No byte readable, none listed: the setting of the spec's vectors where they name no memory. -/
def noMem : Memory := ⟨[], []⟩

/-- The cells that hold `bs` from `a` on; a zero byte is not listed. -/
def cellsFrom : Nat → List Byte → List Host.Cell
  | _, [] => []
  | a, b :: bs => if b = 0 then cellsFrom (a + 1) bs else (a, b) :: cellsFrom (a + 1) bs

/-- The bytes `bs` from `a` on, and no other address readable. -/
def bytesFrom (a : Nat) (bs : List Byte) : Memory :=
  ⟨cellsFrom a bs, if bs = [] then [] else [⟨a, a + bs.length⟩]⟩

/-- The bytes 0, 1, 2, … -/
def count (n : Nat) : List Byte := (List.range n).map (BitVec.ofNat 8)

/-- "abc". -/
def abc : List Byte := [0x61, 0x62, 0x63]

/-- Reset on a platform with the memory `m`. -/
def idle (m : Memory) : State := State.resetOn m

/-- Every core in phase `p` with its initial value, fault code `f`. -/
def every (p : Phase) (f : BitVec 3) (m : Memory) : State :=
  { idle m with
    ripemd256 := ⟨ripemdIv, p, f⟩
    sha1 := ⟨sha1Iv, p, f⟩
    sha256 := ⟨sha256Iv, p, f⟩
    sha384 := ⟨sha384Iv, p, f⟩ }

/-- Every core ACTIVE. -/
def active (m : Memory) : State := every .active 0 m

/-- Every core FINAL. -/
def final (m : Memory) : State := every .final 0 m

/-- Every core FAULTED by `TailTooLong`. -/
def faulted : State := every .faulted 3 noMem

/-- The response to `i` in `s`: its code and what it carries. -/
def response (i : Instr) (s : State) : Option (BitVec 8 × List Byte) := (nextOf (exec i s)).map fun t => (t.rc, t.rdata)

/-- The response code, the phase and the fault code of core `c` after `i` in `s`. -/
def status (c : CoreId) (i : Instr) (s : State) : Option (BitVec 8 × Phase × BitVec 3) :=
  (nextOf (exec i s)).map fun t => (t.rc, t.phaseOf c, t.fcodeOf c)

/-- The state with the inputs `l` waiting. -/
def waiting (l : List HostInput) (s : State) : State := s.setInbox l

/-- A command whose operands are 0. -/
def word (cw : Word32) : Command := ⟨cw, 0, 0, 0⟩

/-! ### Word primitives (`98_test_vectors_system.md` section 2.9) -/

theorem test_word_primitives :
    rotl (0x80000001 : Word32) 1 = 0x00000003 ∧ rotl (0x67452301 : Word32) 5 = 0xe8a4602c ∧
    rotr (0x00000001 : Word32) 2 = 0x40000000 ∧ rotr (0x0000000000000001 : Word64) 1 = 0x8000000000000000 ∧
    rotr (0x0123456789abcdef : Word64) 61 = 0x091a2b3c4d5e6f78 ∧ (0x80000000 : Word32) >>> 3 = 0x10000000 ∧
    bswap (0x01020304 : Word32) = 0x04030201 ∧ bswap (0x0102030405060708 : Word64) = 0x0807060504030201 ∧
    beWord 32 [0x61, 0x62, 0x63, 0x80] = 0x61626380 ∧ leWord 32 [0x61, 0x62, 0x63, 0x80] = 0x80636261 ∧
    beWord 64 [0x61, 0x62, 0x63, 0x80, 0, 0, 0, 0] = 0x6162638000000000 ∧
    toBeBytes (0x18 : Word64) = [0, 0, 0, 0, 0, 0, 0, 0x18] ∧ toLeBytes (0x18 : Word64) = [0x18, 0, 0, 0, 0, 0, 0, 0] := by
  decide

theorem test_sigma_functions :
    sha256Ssig0 0x00000018 = 0x30060003 ∧ sha256Ssig1 0x00000018 = 0x000f0000 ∧ sha256Bsig0 0x6a09e667 = 0xce20b47e ∧
    sha256Bsig1 0x510e527f = 0x3587272b ∧ sha2Ch (0x510e527f : Word32) 0x9b05688c 0x1f83d9ab = 0x1f85c98c ∧
    sha2Maj (0x6a09e667 : Word32) 0xbb67ae85 0x3c6ef372 = 0x3a6fe667 ∧
    sha384Ssig0 0x0000000000000018 = 0x180000000000000c ∧ sha384Ssig1 0x0000000000000018 = 0x00030000000000c0 := by
  decide

/-! ### Well-formedness and decoding (`30_encoding.md` R91 to R103; section 2.6) -/

theorem test_wellFormed_accepts : (word 0x00000032).wellFormed = true := by decide

theorem test_wellFormed_refuses_high_reserved :
    (word 0x00000112).highReservedClear = false ∧ (word 0x00000112).wellFormed = false := by decide

theorem test_wellFormed_refuses_low_reserved :
    (word 0x00000014).lowReservedClear = false ∧ (word 0x00000014).wellFormed = false := by decide

theorem test_wellFormed_refuses_operation :
    (word 0x00000060).operationDefined = false ∧ (word 0x00000060).wellFormed = false := by decide

theorem test_decode_ripemd256 :
    decode ⟨0b00000000000000000000000000010000, 1, 2, 3⟩ = .ok .ripemd256Init ∧
    decode ⟨0b00000000000000000000000000100000, 1, 2, 3⟩ = .ok (.ripemd256Cycle 1 2) ∧
    decode ⟨0b00000000000000000000000000110000, 1, 2, 3⟩ = .ok (.ripemd256Finish 1 2 3) ∧
    decode ⟨0b00000000000000000000000001000000, 1, 2, 3⟩ = .ok .ripemd256Digest ∧
    decode ⟨0b00000000000000000000000001010000, 1, 2, 3⟩ = .ok .ripemd256Erase := by decide

theorem test_decode_sha1 :
    decode ⟨0b00000000000000000000000000010001, 1, 2, 3⟩ = .ok .sha1Init ∧
    decode ⟨0b00000000000000000000000000100001, 1, 2, 3⟩ = .ok (.sha1Cycle 1 2) ∧
    decode ⟨0b00000000000000000000000000110001, 1, 2, 3⟩ = .ok (.sha1Finish 1 2 3) ∧
    decode ⟨0b00000000000000000000000001000001, 1, 2, 3⟩ = .ok .sha1Digest ∧
    decode ⟨0b00000000000000000000000001010001, 1, 2, 3⟩ = .ok .sha1Erase := by decide

theorem test_decode_sha256 :
    decode ⟨0b00000000000000000000000000010010, 1, 2, 3⟩ = .ok .sha256Init ∧
    decode ⟨0b00000000000000000000000000100010, 1, 2, 3⟩ = .ok (.sha256Cycle 1 2) ∧
    decode ⟨0b00000000000000000000000000110010, 1, 2, 3⟩ = .ok (.sha256Finish 1 2 3) ∧
    decode ⟨0b00000000000000000000000001000010, 1, 2, 3⟩ = .ok .sha256Digest ∧
    decode ⟨0b00000000000000000000000001010010, 1, 2, 3⟩ = .ok .sha256Erase := by decide

theorem test_decode_sha384 :
    decode ⟨0b00000000000000000000000000010011, 1, 2, 3⟩ = .ok .sha384Init ∧
    decode ⟨0b00000000000000000000000000100011, 1, 2, 3⟩ = .ok (.sha384Cycle 1 2) ∧
    decode ⟨0b00000000000000000000000000110011, 1, 2, 3⟩ = .ok (.sha384Finish 1 2 3) ∧
    decode ⟨0b00000000000000000000000001000011, 1, 2, 3⟩ = .ok .sha384Digest ∧
    decode ⟨0b00000000000000000000000001010011, 1, 2, 3⟩ = .ok .sha384Erase := by decide

theorem test_decode_illegal :
    decode (word 0x00000000) = .error .reservedOperation ∧ decode (word 0x00000003) = .error .reservedOperation ∧
    decode (word 0x00000060) = .error .reservedOperation ∧ decode (word 0x000000f2) = .error .reservedOperation ∧
    decode (word 0x00000014) = .error .lowReservedSet ∧ decode (word 0x0000001c) = .error .lowReservedSet ∧
    decode (word 0x00000112) = .error .highReservedSet ∧ decode (word 0x80000022) = .error .highReservedSet ∧
    decode (word 0xffffffff) = .error .highReservedSet := by decide

theorem test_decodeTableWord :
    decodeTableWord 32 0x00000022 = some (.sha256Cycle 0 0) ∧ decodeTableWord 32 0x00000060 = none ∧
    decodeTableWord 224 (0x00000033 + 2 ^ 32 * 5 + 2 ^ 96 * 6 + 2 ^ 160 * 7) = some (.sha384Finish 5 6 7) := by decide

/-! ### INIT (R169, R196, R218, R238, R121) -/

theorem test_ripemd256Init :
    (nextOf (exec .ripemd256Init State.reset)).map (fun t => (t.ripemd256, t.rc)) = some
      (⟨⟨0x67452301, 0xefcdab89, 0x98badcfe, 0x10325476, 0x76543210, 0xfedcba98, 0x89abcdef, 0x01234567⟩, .active, 0⟩, 0) := by
  decide

theorem test_ripemd256Init_twice : status .ripemd256 .ripemd256Init (active noMem) = some (2, .faulted, 2) := by decide

theorem test_sha1Init :
    (nextOf (exec .sha1Init State.reset)).map (fun t => (t.sha1, t.rc)) = some
      (⟨⟨0x67452301, 0xefcdab89, 0x98badcfe, 0x10325476, 0xc3d2e1f0⟩, .active, 0⟩, 0) := by decide

theorem test_sha1Init_twice : status .sha1 .sha1Init (active noMem) = some (2, .faulted, 2) := by decide

theorem test_sha256Init :
    (nextOf (exec .sha256Init State.reset)).map (fun t => (t.sha256, t.rc)) = some
      (⟨⟨0x6a09e667, 0xbb67ae85, 0x3c6ef372, 0xa54ff53a, 0x510e527f, 0x9b05688c, 0x1f83d9ab, 0x5be0cd19⟩, .active, 0⟩, 0) := by
  decide

/-- Section 2.7 row 6. -/
theorem test_sha256Init_final : status .sha256 .sha256Init (final noMem) = some (2, .faulted, 2) := by decide

theorem test_sha384Init :
    (nextOf (exec .sha384Init State.reset)).map (fun t => (t.sha384.h.h0, t.sha384.h.h7, t.sha384.phase, t.rc)) = some
      (0xcbbb9d5dc1059ed8, 0x47b5481dbefa4fa4, .active, 0) := by decide

/-- Section 2.7 row 24. -/
theorem test_sha384Init_faulted : status .sha384 .sha384Init faulted = some (2, .faulted, 3) := by decide

/-! ### CYCLE (R170, R197, R219, R239; section 2.7) -/

theorem test_ripemd256Cycle :
    (nextOf (exec (.ripemd256Cycle 0x2000 1) (active (bytesFrom 0x2000 (count 64))))).map (·.ripemd256) = some
      ⟨⟨0xa3235011, 0x3b722480, 0x003716fb, 0x0e9c19a7, 0x757cf8f7, 0x33d64a88, 0xca695735, 0x76c459de⟩, .active, 0⟩ := by
  decide +kernel

/-- Section 2.7 row 8, on this core. -/
theorem test_ripemd256Cycle_unreadable :
    status .ripemd256 (.ripemd256Cycle 0xfff 1) (active (bytesFrom 0x1000 (count 64))) = some (5, .faulted, 5) := by
  decide +kernel

theorem test_sha1Cycle :
    (nextOf (exec (.sha1Cycle 0x2000 1) (active (bytesFrom 0x2000 (count 64))))).map (·.sha1) = some
      ⟨⟨0xb9ac757b, 0xbc297925, 0x2e227274, 0x06872f94, 0xcbea56a1⟩, .active, 0⟩ := by
  decide +kernel

/-- Section 2.7 row 10, on this core. -/
theorem test_sha1Cycle_past_top :
    status .sha1 (.sha1Cycle 0xffffffffffffffc1 1) (active noMem) = some (4, .faulted, 4) := by decide

theorem test_sha256Cycle :
    (nextOf (exec (.sha256Cycle 0x2000 1) (active (bytesFrom 0x2000 (count 64))))).map (·.sha256) = some
      ⟨⟨0xfc99a2df, 0x88f42a7a, 0x7bb9d180, 0x33cdc6a2, 0x0256755f, 0x9d5b9a50, 0x44a9cc31, 0x5abe84a7⟩, .active, 0⟩ := by
  decide +kernel

/-- Section 2.7 row 9: the range ends exactly at the top of the address space. -/
theorem test_sha256Cycle_to_top :
    status .sha256 (.sha256Cycle 0xffffffffffffffc0 1) (active noMem) = some (5, .faulted, 5) := by decide

theorem test_sha384Cycle :
    (nextOf (exec (.sha384Cycle 0x2000 1) (active (bytesFrom 0x2000 (count 128))))).map (·.sha384) = some
      ⟨⟨0x6f1664d213dd802f, 0x7c47bc50637cf935, 0x92570a2b86958391, 0x48bf38341c6eacd0,
        0x5326452ef1cbe64d, 0x90f1ef73bb5ac7d2, 0x803565467d0ddb10, 0xc5ee3fc050f9f0c1⟩, .active, 0⟩ := by
  decide +kernel

/-- Section 2.7 row 12: `128*A1 = 2^64` exactly. -/
theorem test_sha384Cycle_whole_space :
    status .sha384 (.sha384Cycle 0 0x200000000000000) (active noMem) = some (5, .faulted, 5) := by decide +kernel

/-! ### FINISH (R171, R198, R220, R240; sections 2.5 and 2.7) -/

theorem test_ripemd256Finish :
    (nextOf (exec (.ripemd256Finish 0x1000 3 3) (active (bytesFrom 0x1000 abc)))).map (fun t => (t.ripemd256, t.epi)) = some
      (⟨⟨0x226ebdaf, 0xbb8c9d8b, 0x2dcaf5ce, 0xa1dbe603, 0x7dbcc00a, 0x0e68e4cb, 0xe9d2421e, 0x659b4575⟩, .final, 0⟩,
        List.replicate 256 0) := by
  decide +kernel

/-- Section 2.7 row 13, on this core. -/
theorem test_ripemd256Finish_tail_too_long :
    status .ripemd256 (.ripemd256Finish 0x1000 120 120) (active noMem) = some (3, .faulted, 3) := by decide

theorem test_sha1Finish :
    (nextOf (exec (.sha1Finish 0x1000 3 3) (active (bytesFrom 0x1000 abc)))).map (·.sha1) = some
      ⟨⟨0x363e99a9, 0x6a810647, 0x71253eba, 0x6cc25078, 0x9dd8d09c⟩, .final, 0⟩ := by
  decide +kernel

/-- Section 2.7 row 18, on this core. -/
theorem test_sha1Finish_past_top :
    status .sha1 (.sha1Finish 0xffffffffffffffff 2 2) (active noMem) = some (4, .faulted, 4) := by decide

theorem test_sha256Finish :
    (nextOf (exec (.sha256Finish 0xffffffffffffffff 0 0) (active noMem))).map (·.sha256) = some
      ⟨⟨0x42c4b0e3, 0x141cfc98, 0xc8f4fb9a, 0x24b96f99, 0xe441ae27, 0x4c939b64, 0x1b9995a4, 0x55b85278⟩, .final, 0⟩ := by
  decide +kernel

/-- Section 2.7 row 16: `TailTooLong` before `AddrRange`. -/
theorem test_sha256Finish_priority :
    status .sha256 (.sha256Finish 0xffffffffffffffff 200 0) (active noMem) = some (3, .faulted, 3) := by decide

theorem test_sha384Finish :
    (nextOf (exec (.sha384Finish 0x1000 3 3) (active (bytesFrom 0x1000 abc)))).map (·.sha384) = some
      ⟨⟨0x8b5ea3453f7500cb, 0x0750c69a693da0b5, 0x63d1de0eab322c27, 0xed5bff435a608b1a,
        0x23cce7a12b078680, 0xa725c834a1ecba58, 0xd79cb8f3fded03a3, 0x15ba57ce8e91660c⟩, .final, 0⟩ := by
  decide +kernel

/-- Section 2.7 row 20, on this core. -/
theorem test_sha384Finish_unreadable :
    status .sha384 (.sha384Finish 0x10fe 3 3) (active (bytesFrom 0x10fe [0x61, 0x61])) = some (5, .faulted, 5) := by decide

/-- R240: the length field of `A2 = 2^64 - 1`. -/
theorem test_length_field :
    sha384LengthField 0xffffffffffffffff =
      [0, 0, 0, 0, 0, 0, 0, 0x07, 0xff, 0xff, 0xff, 0xff, 0xff, 0xff, 0xff, 0xf8] ∧
    ripemdLengthField 3 = [0x18, 0, 0, 0, 0, 0, 0, 0] ∧ sha1LengthField 3 = [0, 0, 0, 0, 0, 0, 0, 0x18] := by decide

/-- R171, R240, R126: one block up to the largest one-block tail, two from the next length on. -/
theorem test_epilogue_blocks :
    epilogueBlocks ripemd256Alg 55 = 1 ∧ epilogueBlocks ripemd256Alg 56 = 2 ∧ epilogueBlocks sha1Alg 55 = 1 ∧
    epilogueBlocks sha256Alg 56 = 2 ∧ epilogueBlocks sha384Alg 111 = 1 ∧ epilogueBlocks sha384Alg 112 = 2 := by decide

/-! ### DIGEST (R172, R199, R221, R241) -/

theorem test_ripemd256Digest :
    response .ripemd256Digest { final noMem with
      ripemd256 := ⟨⟨0x226ebdaf, 0xbb8c9d8b, 0x2dcaf5ce, 0xa1dbe603, 0x7dbcc00a, 0x0e68e4cb, 0xe9d2421e, 0x659b4575⟩, .final, 0⟩ } =
    some (0, [0xaf, 0xbd, 0x6e, 0x22, 0x8b, 0x9d, 0x8c, 0xbb, 0xce, 0xf5, 0xca, 0x2d, 0x03, 0xe6, 0xdb, 0xa1,
      0x0a, 0xc0, 0xbc, 0x7d, 0xcb, 0xe4, 0x68, 0x0e, 0x1e, 0x42, 0xd2, 0xe9, 0x75, 0x45, 0x9b, 0x65] ++
      List.replicate 16 0) := by decide +kernel

/-- R199: in ACTIVE the unswapped chaining value, least significant byte first. -/
theorem test_sha1Digest_active :
    response .sha1Digest { active noMem with
      sha1 := ⟨⟨0xb9ac757b, 0xbc297925, 0x2e227274, 0x06872f94, 0xcbea56a1⟩, .active, 0⟩ } =
    some (0, [0x7b, 0x75, 0xac, 0xb9, 0x25, 0x79, 0x29, 0xbc, 0x74, 0x72, 0x22, 0x2e, 0x94, 0x2f, 0x87, 0x06,
      0xa1, 0x56, 0xea, 0xcb] ++ List.replicate 28 0) := by decide +kernel

theorem test_sha256Digest :
    response .sha256Digest { final noMem with
      sha256 := ⟨⟨0x42c4b0e3, 0x141cfc98, 0xc8f4fb9a, 0x24b96f99, 0xe441ae27, 0x4c939b64, 0x1b9995a4, 0x55b85278⟩, .final, 0⟩ } =
    some (0, [0xe3, 0xb0, 0xc4, 0x42, 0x98, 0xfc, 0x1c, 0x14, 0x9a, 0xfb, 0xf4, 0xc8, 0x99, 0x6f, 0xb9, 0x24,
      0x27, 0xae, 0x41, 0xe4, 0x64, 0x9b, 0x93, 0x4c, 0xa4, 0x95, 0x99, 0x1b, 0x78, 0x52, 0xb8, 0x55] ++
      List.replicate 16 0) := by decide +kernel

theorem test_sha384Digest :
    response .sha384Digest { final noMem with
      sha384 := ⟨⟨0x8b5ea3453f7500cb, 0x0750c69a693da0b5, 0x63d1de0eab322c27, 0xed5bff435a608b1a,
        0x23cce7a12b078680, 0xa725c834a1ecba58, 0xd79cb8f3fded03a3, 0x15ba57ce8e91660c⟩, .final, 0⟩ } =
    some (0, [0xcb, 0x00, 0x75, 0x3f, 0x45, 0xa3, 0x5e, 0x8b, 0xb5, 0xa0, 0x3d, 0x69, 0x9a, 0xc6, 0x50, 0x07,
      0x27, 0x2c, 0x32, 0xab, 0x0e, 0xde, 0xd1, 0x63, 0x1a, 0x8b, 0x60, 0x5a, 0x43, 0xff, 0x5b, 0xed,
      0x80, 0x86, 0x07, 0x2b, 0xa1, 0xe7, 0xcc, 0x23, 0x58, 0xba, 0xec, 0xa1, 0x34, 0xc8, 0x25, 0xa7]) := by
  decide +kernel

/-- Section 2.7 rows 3 and 22: DIGEST of an IDLE and of a FAULTED core. -/
theorem test_digest_refused :
    status .sha256 .sha256Digest State.reset = some (2, .faulted, 2) ∧
    status .sha256 .sha256Digest faulted = some (2, .faulted, 3) := by decide

/-! ### ERASE (R173, R200, R222, R242; section 2.8) -/

theorem test_ripemd256Erase :
    (nextOf (exec .ripemd256Erase faulted)).map (fun t => (t.ripemd256, t.rc)) =
      some (⟨⟨0, 0, 0, 0, 0, 0, 0, 0⟩, .idle, 0⟩, 0) := by decide

theorem test_sha1Erase :
    (nextOf (exec .sha1Erase (active noMem))).map (fun t => (t.sha1, t.rc)) = some (⟨⟨0, 0, 0, 0, 0⟩, .idle, 0⟩, 0) := by decide

theorem test_sha256Erase :
    (nextOf (exec .sha256Erase State.reset)).map (fun t => (t.sha256, t.rc)) =
      some (⟨⟨0, 0, 0, 0, 0, 0, 0, 0⟩, .idle, 0⟩, 0) := by decide

theorem test_sha384Erase :
    (nextOf (exec .sha384Erase (final noMem))).map (fun t => (t.sha384, t.rc)) =
      some (⟨⟨0, 0, 0, 0, 0, 0, 0, 0⟩, .idle, 0⟩, 0) := by decide

/-! ### Steps -/

/-- The first step of a presented word runs it; an illegal word answers 1 (section 2.6). -/
theorem test_step_runs_word :
    (nextOf (step (State.reset.withFetchWord 32 0x00000012))).map (fun t => (t.sha256.phase, t.cw, t.inbox)) =
      some (.active, 0x00000012, []) ∧
    (nextOf (step (State.reset.withFetchWord 32 0x000000f2))).map (fun t => (t.rc, t.sha256)) =
      some (1, State.reset.sha256) := by decide

/-- R300: reset in FAULTED, with and without a running command. -/
theorem test_step_reset :
    (nextOf (step (waiting [.reset] faulted))).map (fun t => (t.sha1, t.rc)) = some (⟨⟨0, 0, 0, 0, 0⟩, .idle, 0⟩, 0) ∧
    (nextOf (step (waiting [.presentReset (word 0x00000011)] (idle noMem)))).map (fun t => (t.sha1, t.cw)) =
      some (⟨⟨0, 0, 0, 0, 0⟩, .idle, 0⟩, 0x00000011) := by decide

/-- R310, U7. -/
theorem test_step_changed_port :
    nextOf (step (waiting [.presentChanged (word 0x00000011) (word 0x00000012)] State.reset)) = none := by decide

/-- R76(a): a host write lists its byte, a written 0 unlists it, and neither changes what is readable (R63). -/
theorem test_step_write :
    (nextOf (step (waiting [.write 5 0xAA] (idle ⟨[(3, 1), (9, 2)], [⟨3, 4⟩]⟩)))).map (·.mem) =
      some ⟨[(3, 1), (5, 0xAA), (9, 2)], [⟨3, 4⟩]⟩ ∧
    (nextOf (step (waiting [.write 3 0] (idle ⟨[(3, 1), (9, 2)], [⟨3, 4⟩]⟩)))).map (·.mem) =
      some ⟨[(9, 2)], [⟨3, 4⟩]⟩ := by decide

/-- R63: the platform's ranges, joined where they meet and cut at the top of the address space. -/
theorem test_step_setReadable :
    (nextOf (step (waiting [.setReadable [⟨8, 9⟩, ⟨4, 6⟩, ⟨7, 7⟩, ⟨6, 7⟩, ⟨2 ^ 64 - 1, 2 ^ 64 + 5⟩]]
      (idle ⟨[(3, 1)], [⟨3, 4⟩]⟩)))).map (·.mem) =
      some ⟨[(3, 1)], [⟨4, 7⟩, ⟨8, 9⟩, ⟨2 ^ 64 - 1, 2 ^ 64⟩]⟩ := by decide

/-- R10, R64: a written byte at an unreadable address stays unreadable, and at reset every address is readable. -/
theorem test_readable_is_the_platforms :
    (noMem.write 5 0xAA).byte 5 = 0xAA ∧ (noMem.write 5 0xAA).read 5 = none ∧
    State.reset.mem.read 0xffffffffffffffff = some 0 ∧ State.reset.mem.read (2 ^ 64) = none := by decide

/-- R262: 70 bytes at 0x4000 with 62 bytes in the buffer at 0x9000. -/
theorem test_stream_update :
    Stream.update ⟨.sha1, 0x9000, 62, 62⟩ 0x4000 (count 70) =
      (⟨.sha1, 0x9000, 4, 132⟩,
        [.write 0x903e 0, .write 0x903f 1, .present ⟨0x00000021, 0x9000, 1, 0⟩, .present ⟨0x00000021, 0x4002, 1, 0⟩,
          .write 0x9000 66, .write 0x9001 67, .write 0x9002 68, .write 0x9003 69]) := by decide +kernel

/-! ### Witnesses: the hypotheses of each statement are met

One theorem for each statement with hypotheses, named after it; each clause of several has its own conjunct. -/

theorem witness_DecodeIsTheOpcodeMap :
    (word 0x0000001c).cw ∉ ([0x00000010, 0x00000020, 0x00000030, 0x00000040, 0x00000050, 0x00000011, 0x00000021, 0x00000031,
      0x00000041, 0x00000051, 0x00000012, 0x00000022, 0x00000032, 0x00000042, 0x00000052, 0x00000013, 0x00000023, 0x00000033,
      0x00000043, 0x00000053] : List Word32) := by decide

theorem witness_DecodedCommandKeepsItsWord :
    decode ⟨0x00000023, 5, 6, 7⟩ = .ok (.sha384Cycle 5 6) ∧ decode ⟨0x00000033, 5, 6, 7⟩ = .ok (.sha384Finish 5 6 7) := by
  decide

theorem witness_IgnoredOperandsDoNotMatter :
    decode ⟨0x00000010, 5, 6, 7⟩ = .ok .ripemd256Init ∧ decode ⟨0x00000041, 5, 6, 7⟩ = .ok .sha1Digest ∧
    decode ⟨0x00000052, 5, 6, 7⟩ = .ok .sha256Erase ∧ decode ⟨0x00000023, 5, 6, 7⟩ = .ok (.sha384Cycle 5 6) := by decide

theorem witness_StepRunsDecodedCommand :
    (waiting [.present ⟨0x00000022, 0x1000, 1, 0⟩, .reset] (active noMem)).inbox = .present ⟨0x00000022, 0x1000, 1, 0⟩ :: [.reset] ∧
    decode ⟨0x00000022, 0x1000, 1, 0⟩ = .ok (.sha256Cycle 0x1000 1) := by decide

theorem witness_FetchedTableWordRuns : decodeTableWord 32 0x00000053 = some .sha384Erase := by decide

theorem witness_UndecodableWordOnlyAnswers :
    (waiting [.present (word 0x00000112)] faulted).inbox = .present (word 0x00000112) :: [] ∧
    (0x00000112 : Word32).extractLsb' 8 24 ≠ 0 ∧ (0x0000001c : Word32).extractLsb' 2 2 ≠ 0 ∧
    (0x00000003 : Word32).extractLsb' 4 4 = 0 ∧ 6 ≤ ((0x00000060 : Word32).extractLsb' 4 4).toNat ∧
    6 ≤ ((0x000000f0 : Word32).extractLsb' 4 4).toNat := by decide

theorem witness_IdleBlockHoldsItsState : (active noMem).inbox = [] := rfl

theorem witness_ResetInputGivesResetState :
    (waiting [.reset] faulted).inbox = .reset :: [] ∧
    (waiting [.presentReset (word 0x00000022)] (active noMem)).inbox = .presentReset (word 0x00000022) :: [] := by decide

/-- The invariant holds of a state with every core FAULTED. -/
theorem faulted_inv : faulted.Inv where
  mem_wf := by decide
  epi_zero := rfl
  rdata_length := by decide
  rc_range := by decide
  fault_without_data := by decide
  ripemd256_inv := ⟨by decide, by decide, by decide⟩
  sha1_inv := ⟨by decide, by decide, by decide⟩
  sha256_inv := ⟨by decide, by decide, by decide⟩
  sha384_inv := ⟨by decide, by decide, by decide⟩

theorem witness_EveryStepKeepsInvariant :
    (waiting [.present (word 0x00000051)] faulted).Inv ∧
    ∃ t, step (waiting [.present (word 0x00000051)] faulted) = .next t :=
  ⟨⟨faulted_inv.mem_wf, faulted_inv.epi_zero, faulted_inv.rdata_length, faulted_inv.rc_range,
    faulted_inv.fault_without_data, faulted_inv.ripemd256_inv, faulted_inv.sha1_inv, faulted_inv.sha256_inv,
    faulted_inv.sha384_inv⟩, _, rfl⟩

theorem witness_HostWritesLandBetweenCommands :
    (waiting [.write 0xffffffffffffffff 1] (active noMem)).inbox = .write 0xffffffffffffffff 1 :: [] ∧
    (waiting [.write 0xffffffffffffffff 1] (active noMem)).mem.wf = true ∧
    (waiting [.write 0x1000 0] (active (bytesFrom 0x1000 abc))).inbox = .write 0x1000 0 :: [] ∧
    (waiting [.write 0x1000 0] (active (bytesFrom 0x1000 abc))).mem.wf = true ∧
    (waiting [.setReadable [⟨0x1001, 0x1003⟩]] (active (bytesFrom 0x1000 abc))).inbox = .setReadable [⟨0x1001, 0x1003⟩] :: [] := by
  decide

/-- Three racing writes, the last at an address written before. -/
def racingWrites : List (Word64 × Byte) := [(0x1001, 0xFF), (0x1002, 0), (0x1001, 0xFE)]

/-- An address no write names, and one whose last write is the second. -/
theorem witness_RacedCommandSeesOldOrNewBytes :
    (waiting [.presentRaced ⟨0x00000032, 0x1000, 3, 3⟩ racingWrites] (active (bytesFrom 0x1000 abc))).inbox =
      .presentRaced ⟨0x00000032, 0x1000, 3, 3⟩ racingWrites :: [] ∧
    (waiting [.presentRaced ⟨0x00000032, 0x1000, 3, 3⟩ racingWrites] (active (bytesFrom 0x1000 abc))).mem.wf = true ∧
    (∀ w ∈ racingWrites, w.1.toNat ≠ 0x1000) ∧
    racingWrites = [(0x1001, 0xFF)] ++ (0x1002, 0) :: [(0x1001, 0xFE)] ∧
    ∀ v ∈ [((0x1001 : Word64), (0xFE : Byte))], v.1 ≠ 0x1002 :=
  ⟨rfl, by decide, by simp [racingWrites], rfl, by simp⟩

theorem witness_ResetStateMeetsInvariant :
    (bytesFrom 0xfffffffffffffffd abc).wf = true ∧ noMem.wf = true := by decide

/-- The agreement holds of a memory and itself after a write is undone. -/
theorem witness_CanonicalMemoriesThatAgreeAreEqual :
    (bytesFrom 0x1000 abc).wf = true ∧ (((bytesFrom 0x1000 abc).write 0x2000 1).write 0x2000 0).wf = true ∧
    ∀ a, a < 2 ^ 64 → (bytesFrom 0x1000 abc).byte a = (((bytesFrom 0x1000 abc).write 0x2000 1).write 0x2000 0).byte a ∧
      (bytesFrom 0x1000 abc).readable a = (((bytesFrom 0x1000 abc).write 0x2000 1).write 0x2000 0).readable a := by
  refine ⟨by decide, by decide, fun a _ => ⟨?_, rfl⟩⟩
  rw [show ((bytesFrom 0x1000 abc).write 0x2000 1).write 0x2000 0 = bytesFrom 0x1000 abc by decide]

theorem witness_MemReadReturnsTheBytesOrFaults :
    (∀ j, j < 3 → (bytesFrom 0xfffffffffffffffd abc).readable (0xfffffffffffffffd + j) = true) ∧
    SomeUnreadable (bytesFrom 0xfffffffffffffffd abc) 0xfffffffffffffffc 4 :=
  ⟨by decide, 0, by decide, by decide⟩

theorem witness_CommandTouchesOnlyItsCore :
    (∃ t, exec (.sha1Finish 0x1000 3 3) (active (bytesFrom 0x1000 abc)) = .next t) ∧ CoreId.sha256 ≠ .sha1 :=
  ⟨⟨_, rfl⟩, by decide⟩

theorem witness_CommandLeavesItsOwnCoreWhereTheSpecSaysSo :
    (∃ t, exec .sha1Digest (final noMem) = .next t ∧ t.rc = 0) ∧
    (∃ t, exec (.sha384Cycle 0 0) (active noMem) = .next t ∧ t.rc = 0) ∧
    (∃ t, exec .sha256Init State.reset = .next t ∧ t.rc = 0) ∧
    ∃ t, exec (.ripemd256Finish 0 120 0) (active noMem) = .next t ∧ t.rc ≠ 0 :=
  ⟨⟨_, rfl, by decide⟩, ⟨_, rfl, by decide⟩, ⟨_, rfl, by decide⟩, _, rfl, by decide⟩

theorem witness_CommandReadsOnlyItsCore :
    SameCore .sha1 (active noMem) { active noMem with sha256 := faulted.sha256, cw := 7 } ∧
    ({ active noMem with sha256 := faulted.sha256, cw := 7 } : State) ≠ active noMem := by
  refine ⟨rfl, by decide⟩

theorem witness_OnlyNamedBytesAreRead :
    (∀ j, j < (namedRange .sha256 .finish 0x1000 3).2 →
      (bytesFrom 0x1000 (abc ++ [0xFF])).read ((namedRange .sha256 .finish 0x1000 3).1 + j) =
        (active (bytesFrom 0x1000 abc)).mem.read ((namedRange .sha256 .finish 0x1000 3).1 + j)) ∧
    bytesFrom 0x1000 (abc ++ [0xFF]) ≠ (active (bytesFrom 0x1000 abc)).mem := by decide

/-- Both clauses of each core: IDLE, and the three other phases. -/
theorem witness_InitLoadsTheInitialValue :
    (∀ c, State.reset.phaseOf c = .idle) ∧
    ∀ c, (active noMem).phaseOf c ≠ .idle ∧ (final noMem).phaseOf c ≠ .idle ∧ faulted.phaseOf c ≠ .idle := by
  constructor <;> intro c <;> cases c <;> decide

theorem cellsFrom_ge {a : Nat} {bs : List Byte} {d : Host.Cell} (h : d ∈ cellsFrom a bs) : a ≤ d.1 := by
  induction bs generalizing a with
  | nil => simp [cellsFrom] at h
  | cons b bs ih =>
    simp only [cellsFrom] at h
    split at h
    · exact Nat.le_of_succ_le (ih h)
    · rcases List.mem_cons.mp h with rfl | h
      · exact Nat.le_refl a
      · exact Nat.le_of_succ_le (ih h)

theorem bytesFrom_byte (a : Nat) (bs : List Byte) (j : Nat) : (bytesFrom a bs).byte (a + j) = bs.getD j 0 := by
  show cellByte (cellsFrom a bs) (a + j) = _
  induction bs generalizing a j with
  | nil => rfl
  | cons b bs ih =>
    have hlow : cellByte (cellsFrom (a + 1) bs) a = unlistedByte := cellByte_of_lt fun d hd => cellsFrom_ge hd
    have ih' := ih (a + 1)
    cases j with
    | zero =>
      simp only [cellsFrom]
      split
      · rename_i h0
        simpa [h0, unlistedByte] using hlow
      · simp [cellByte]
    | succ j =>
      simp only [cellsFrom]
      split <;> simpa [cellByte, Nat.add_assoc, Nat.add_comm 1 j] using ih' j

theorem bytesFrom_canRead (a : Nat) (bs : List Byte) (j : Nat) :
    (bytesFrom a bs).readable (a + j) = decide (j < bs.length) := by
  cases bs with
  | nil => rfl
  | cons b bs => simp [bytesFrom, Memory.readable, regionsHold]

theorem bytesFrom_read (a : Nat) (bs : List Byte) (j : Nat) : (bytesFrom a bs).read (a + j) = bs[j]? := by
  rw [Memory.read_eq, bytesFrom_canRead, bytesFrom_byte]
  by_cases h : j < bs.length <;> simp [h]

theorem bytesFrom_holds (a : Nat) (bs : List Byte) : MemHolds (bytesFrom a bs) a bs :=
  fun j _ => bytesFrom_read a bs j

theorem bytesFrom_readable {a n : Nat} {bs : List Byte} (h : n ≤ bs.length) : ¬ SomeUnreadable (bytesFrom a bs) a n := by
  rintro ⟨j, hj, hu⟩
  rw [bytesFrom_canRead, decide_eq_false_iff_not] at hu
  omega

@[simp] theorem count_length (n : Nat) : (count n).length = n := by simp [count]

theorem active_live (m : Memory) (c : CoreId) : (active m).live c := by
  cases c <;> exact .inl rfl

theorem final_live (m : Memory) (c : CoreId) : (final m).live c := by
  cases c <;> exact .inr rfl

/-- Each core, ACTIVE and FINAL, with one block that ends exactly at the top of the address space. -/
theorem witness_CycleAbsorbsItsBlocks (c : CoreId) :
    (active (bytesFrom (2 ^ 64 - blockSizeOf c) (count (blockSizeOf c)))).live c ∧
    (final (bytesFrom (2 ^ 64 - blockSizeOf c) (count (blockSizeOf c)))).live c ∧
    MemHolds (active (bytesFrom (2 ^ 64 - blockSizeOf c) (count (blockSizeOf c)))).mem
      (BitVec.ofNat 64 (2 ^ 64 - blockSizeOf c)).toNat (count (blockSizeOf c)) ∧
    (BitVec.ofNat 64 (2 ^ 64 - blockSizeOf c)).toNat + (1 : Word64).toNat * blockSizeOf c ≤ 2 ^ 64 ∧
    (count (blockSizeOf c)).length = (1 : Word64).toNat * blockSizeOf c := by
  refine ⟨active_live _ _, final_live _ _, ?_⟩
  cases c <;> exact ⟨bytesFrom_holds _ _, by decide, count_length _⟩

theorem witness_ZeroLengthOperandsReadNothing :
    (∀ c, (active noMem).live c) ∧ (∀ c, (final noMem).live c) ∧ faulted.mem = (active noMem).mem :=
  ⟨active_live _, final_live _, rfl⟩

/-- For each core: a range one byte past the top; block 0 unreadable, ending at the top; block 0 readable and block 1 not. -/
theorem witness_CycleFaultsOnItsRange (c : CoreId) :
    ((active noMem).live c ∧ 2 ^ 64 < (BitVec.ofNat 64 (2 ^ 64 - blockSizeOf c + 1)).toNat + (1 : Word64).toNat * blockSizeOf c) ∧
    ((BitVec.ofNat 64 (2 ^ 64 - blockSizeOf c)).toNat + (1 : Word64).toNat * blockSizeOf c ≤ 2 ^ 64 ∧ 0 < (1 : Word64).toNat ∧
      SomeUnreadable (active noMem).mem (BitVec.ofNat 64 (2 ^ 64 - blockSizeOf c)).toNat (blockSizeOf c)) ∧
    ((final (bytesFrom 0x1000 (count (blockSizeOf c)))).live c ∧ 0x1000 + (2 : Word64).toNat * blockSizeOf c ≤ 2 ^ 64 ∧
      ¬ SomeUnreadable (final (bytesFrom 0x1000 (count (blockSizeOf c)))).mem 0x1000 (blockSizeOf c) ∧
      SomeUnreadable (final (bytesFrom 0x1000 (count (blockSizeOf c)))).mem 0x1000 ((2 : Word64).toNat * blockSizeOf c)) := by
  refine ⟨⟨active_live _ _, ?_⟩, ⟨?_, ?_, 0, ?_, ?_⟩, final_live _ _, ?_, ?_, blockSizeOf c, ?_, ?_⟩
  case refine_7 => exact bytesFrom_readable (by simp)
  case refine_9 => exact (bytesFrom_canRead _ _ _).trans (by simp)
  all_goals cases c <;> decide

/-- For each core: two readable blocks that end exactly at the top. -/
theorem witness_CycleSplitsAnywhere (c : CoreId) :
    (active (bytesFrom (2 ^ 64 - 2 * blockSizeOf c) (count (2 * blockSizeOf c)))).live c ∧
    (BitVec.ofNat 64 (2 ^ 64 - 2 * blockSizeOf c)).toNat + ((1 : Word64).toNat + (1 : Word64).toNat) * blockSizeOf c ≤ 2 ^ 64 ∧
    ¬ SomeUnreadable (active (bytesFrom (2 ^ 64 - 2 * blockSizeOf c) (count (2 * blockSizeOf c)))).mem
      (BitVec.ofNat 64 (2 ^ 64 - 2 * blockSizeOf c)).toNat (((1 : Word64).toNat + (1 : Word64).toNat) * blockSizeOf c) := by
  refine ⟨active_live _ _, ?_, ?_⟩
  · cases c <;> decide
  · cases c <;> exact bytesFrom_readable (by rw [count_length]; decide)

/-- The state in which a tail of `n` readable bytes ends exactly at the top of the address space. -/
def tailAtTop (n : Nat) : State := active (bytesFrom (2 ^ 64 - n) (count n))

/-- What FINISH of such a tail needs of memory and operands. -/
theorem tailAtTop_holds (n : Nat) (h : n ∈ [0, 55, 56, 64, 111, 112, 119, 128, 239]) :
    (tailAtTop n).epi = List.replicate 256 0 ∧
    (n ≠ 0 → MemHolds (tailAtTop n).mem (BitVec.ofNat 64 (2 ^ 64 - n)).toNat (count n)) ∧
    (count n).length = (BitVec.ofNat 64 n).toNat ∧
    (BitVec.ofNat 64 (2 ^ 64 - n)).toNat + (BitVec.ofNat 64 n).toNat ≤ 2 ^ 64 ∧
    ¬ SomeUnreadable (tailAtTop n).mem (BitVec.ofNat 64 (2 ^ 64 - n)).toNat (BitVec.ofNat 64 n).toNat := by
  have hn : (BitVec.ofNat 64 n).toNat = n := by revert n; decide
  have hp : n ≠ 0 → (BitVec.ofNat 64 (2 ^ 64 - n)).toNat = 2 ^ 64 - n := by revert n; decide
  refine ⟨rfl, fun h0 => ?_, by rw [hn, count_length], by revert n; decide, ?_⟩
  · rw [hp h0]
    exact bytesFrom_holds _ _
  · rcases Nat.eq_zero_or_pos n with rfl | h0
    · rintro ⟨j, hj, _⟩
      exact absurd hj (by simp)
    · rw [hp (by omega), hn]
      exact bytesFrom_readable (by simp)

/-- Each core at the empty tail, the largest one-block tail, the smallest two-block tail and the largest tail. -/
theorem witness_FinishPadsAbsorbsAndEnds :
    (∀ n ∈ [0, 55, 56, 111, 112, 119, 239], ∀ c, (tailAtTop n).live c) ∧
    (BitVec.ofNat 64 55).toNat ≤ 55 ∧ (BitVec.ofNat 64 119).toNat ≤ 119 ∧
    (BitVec.ofNat 64 111).toNat ≤ 111 ∧ (BitVec.ofNat 64 239).toNat ≤ 239 :=
  ⟨fun _ _ c => active_live _ c, by decide, by decide, by decide, by decide⟩

/-- One byte above the limit; at the limit, one byte past the top; at the limit, ending at the top, unreadable. -/
theorem witness_FinishFaultsOnItsOperands (c : CoreId) :
    (active noMem).live c ∧
    tailLimitOf c < (BitVec.ofNat 64 (tailLimitOf c + 1)).toNat ∧
    ((BitVec.ofNat 64 (tailLimitOf c)).toNat ≤ tailLimitOf c ∧
      2 ^ 64 < (BitVec.ofNat 64 (2 ^ 64 - tailLimitOf c + 1)).toNat + (BitVec.ofNat 64 (tailLimitOf c)).toNat) ∧
    ((BitVec.ofNat 64 (2 ^ 64 - tailLimitOf c)).toNat + (BitVec.ofNat 64 (tailLimitOf c)).toNat ≤ 2 ^ 64 ∧
      SomeUnreadable (active noMem).mem (BitVec.ofNat 64 (2 ^ 64 - tailLimitOf c)).toNat (BitVec.ofNat 64 (tailLimitOf c)).toNat) := by
  refine ⟨active_live _ _, ?_, ⟨?_, ?_⟩, ?_, 0, ?_, ?_⟩ <;> cases c <;> decide

theorem witness_FinishAlwaysWipesEpilogue (c : CoreId) : (active noMem).live c ∧ ¬ State.reset.live c ∧ ¬ faulted.live c := by
  refine ⟨active_live _ _, ?_, ?_⟩ <;> cases c <;> simp only [State.live] <;> decide

/-- Each core at the shortest and the longest tail that holds a whole block. -/
theorem witness_LongTailEqualsCycleThenFinish :
    (∀ n ∈ [64, 119, 128, 239], ∀ c, (tailAtTop n).live c) ∧
    64 ≤ (BitVec.ofNat 64 64).toNat ∧ (BitVec.ofNat 64 119).toNat ≤ 119 ∧
    128 ≤ (BitVec.ofNat 64 128).toNat ∧ (BitVec.ofNat 64 239).toNat ≤ 239 :=
  ⟨fun _ _ c => active_live _ c, by decide, by decide, by decide, by decide⟩

/-- Each core with a message of one block and the longest tail, split after one block and after two (section 2.5). -/
theorem witness_DigestDoesNotDependOnTheSplit (c : CoreId) :
    (idle (bytesFrom 0x4000 (count (blockSizeOf c + tailLimitOf c)))).phaseOf c = .idle ∧
    (idle (bytesFrom 0x4000 (count (blockSizeOf c + tailLimitOf c)))).epi = List.replicate 256 0 ∧
    (0x4000 : Word64).toNat + (BitVec.ofNat 64 (blockSizeOf c + tailLimitOf c)).toNat ≤ 2 ^ 64 ∧
    ¬ SomeUnreadable (idle (bytesFrom 0x4000 (count (blockSizeOf c + tailLimitOf c)))).mem (0x4000 : Word64).toNat
      (BitVec.ofNat 64 (blockSizeOf c + tailLimitOf c)).toNat ∧
    (1 : Word64).toNat * blockSizeOf c ≤ (BitVec.ofNat 64 (blockSizeOf c + tailLimitOf c)).toNat ∧
    (BitVec.ofNat 64 (blockSizeOf c + tailLimitOf c)).toNat - (1 : Word64).toNat * blockSizeOf c ≤ tailLimitOf c ∧
    (2 : Word64).toNat * blockSizeOf c ≤ (BitVec.ofNat 64 (blockSizeOf c + tailLimitOf c)).toNat ∧
    (BitVec.ofNat 64 (blockSizeOf c + tailLimitOf c)).toNat - (2 : Word64).toNat * blockSizeOf c ≤ tailLimitOf c := by
  refine ⟨?_, rfl, ?_, ?_, ?_, ?_, ?_, ?_⟩
  case refine_3 => cases c <;> exact bytesFrom_readable (by rw [count_length]; decide)
  all_goals cases c <;> decide

/-- Each core with the empty message, the longest below a block (the CYCLE left out), one of a block and the longest that
needs no CYCLE. -/
theorem witness_HashPseudoInstruction (c : CoreId) (n : Nat) (h : n ∈ [0, blockSizeOf c - 1, blockSizeOf c, tailLimitOf c]) :
    (idle (bytesFrom 0x4000 (count n))).phaseOf c = .idle ∧
    (idle (bytesFrom 0x4000 (count n))).epi = List.replicate 256 0 ∧
    (0x4000 : Word64).toNat + (BitVec.ofNat 64 n).toNat ≤ 2 ^ 64 ∧
    ¬ SomeUnreadable (idle (bytesFrom 0x4000 (count n))).mem (0x4000 : Word64).toNat (BitVec.ofNat 64 n).toNat ∧
    (n ∈ [0, blockSizeOf c - 1] → (BitVec.ofNat 64 n).toNat < blockSizeOf c) ∧ (BitVec.ofNat 64 n).toNat ≤ tailLimitOf c := by
  have hn : (BitVec.ofNat 64 n).toNat = n := by revert n; cases c <;> decide
  refine ⟨by cases c <;> rfl, rfl, ?_, ?_, ?_, ?_⟩
  · rw [hn]; revert n; cases c <;> decide
  · rw [hn]; exact bytesFrom_readable (by simp)
  · rw [hn]; revert n; cases c <;> decide
  · rw [hn]; revert n; cases c <;> decide

theorem witness_DigestAnswersTheStateImage (c : CoreId) : (active noMem).live c ∧ (final noMem).live c :=
  ⟨active_live _ c, final_live _ c⟩

theorem witness_WordsAndBytesConvertBack : (count 4).length = 4 ∧ (count 8).length = 8 := by decide

theorem witness_RotatesFollowTheirFormula : (0 < 1 ∧ 1 < 32) ∧ (0 < 31 ∧ 31 < 32) ∧ (0 < 63 ∧ 63 < 64) := by decide

/-- The 16 commands that a FAULTED core refuses. -/
theorem witness_FaultedCoreRefusesAllButErase (c : CoreId) (op : Operation) (h : op ≠ .erase) :
    (instrOf c op 0 0 0).operation ≠ .erase ∧ faulted.phaseOf (instrOf c op 0 0 0).coreId = .faulted := by
  revert h
  cases c <;> cases op <;> decide

theorem witness_PhaseTransitionTable :
    (waiting [.present (word 0)] (active noMem)).inbox = .present (word 0) :: [] ∧
    ∃ e, decode (word 0) = .error e :=
  ⟨rfl, .reservedOperation, by decide⟩

/-- Every clause of the priority order for each core, at its boundary: the operands are those of the CYCLE and FINISH
witnesses above. -/
theorem witness_OneFaultInPriorityOrder (c : CoreId) :
    ((waiting [.present (word 0xffffffff)] faulted).inbox = .present (word 0xffffffff) :: [] ∧
      ∃ e, decode (word 0xffffffff) = .error e) ∧
    (State.reset.phaseOf c = .idle ∧ (active noMem).phaseOf c ≠ .idle) ∧ (¬ State.reset.live c ∧ (active noMem).live c) ∧
    ¬ SomeUnreadable (active noMem).mem 0x1000 ((0 : Word64).toNat * blockSizeOf c) ∧
    ¬ SomeUnreadable (active noMem).mem 0x1000 (0 : Word64).toNat := by
  refine ⟨⟨rfl, .highReservedSet, by decide⟩, ?_, ⟨?_, active_live _ _⟩, ?_, ?_⟩
  · cases c <;> decide
  · cases c <;> simp only [State.live] <;> decide
  · rintro ⟨j, hj, _⟩
    simp at hj
  · rintro ⟨j, hj, _⟩
    simp at hj

/-- A fault from each phase; a `ReadFault` at block 0; a FINISH fault and a `BadPhase` of FINISH. -/
theorem witness_FaultEntry :
    (∃ t, exec (instrOf .sha1 .init 0 0 0) (active noMem) = .next t ∧ t.rc ≠ 0) ∧
    (∃ t, exec (instrOf .sha1 .digest 0 0 0) faulted = .next t ∧ t.rc ≠ 0 ∧ faulted.phaseOf .sha1 = .faulted) ∧
    (∃ t, exec (instrOf .sha256 .cycle 0 1 0) (active noMem) = .next t ∧ t.rc = 5 ∧
      SomeUnreadable (active noMem).mem (0 : Word64).toNat (blockSizeOf .sha256)) ∧
    (∃ t, exec (instrOf .sha384 .finish 0 240 0) (active noMem) = .next t ∧ t.rc = 3) ∧
    ∃ t, exec (instrOf .sha384 .finish 0 240 0) State.reset = .next t ∧ t.rc = 2 :=
  ⟨⟨_, rfl, by decide⟩, ⟨_, rfl, by decide, by decide⟩, ⟨_, rfl, by decide, 0, by decide, by decide⟩, ⟨_, rfl, by decide⟩,
    _, rfl, by decide⟩

/-- The ways out of FAULTED: reset, reset of a running command, ERASE, ERASE during a race. -/
theorem witness_OnlyEraseOrResetLeavesFaulted (x : HostInput)
    (h : x ∈ [.reset, .presentReset (word 0x00000011), .present (word 0x00000051), .presentRaced (word 0x00000051) [(0, 1)]]) :
    ∃ t, step (waiting [x] faulted) = .next t ∧ (waiting [x] faulted).phaseOf .sha1 = .faulted ∧ t.phaseOf .sha1 ≠ .faulted := by
  simp only [List.mem_cons, List.not_mem_nil, or_false] at h
  rcases h with rfl | rfl | rfl | rfl <;> exact ⟨_, rfl, by decide, by decide⟩

/-- The register written on the way to FAULTED, kept in FAULTED, cleared by ERASE, left by an OK command. -/
theorem witness_FaultCodeRegister :
    (∃ t, exec (.sha1Finish 0 120 0) (active noMem) = .next t ∧ (active noMem).phaseOf .sha1 ≠ .faulted ∧
      t.phaseOf .sha1 = .faulted) ∧
    (∃ t, exec .sha1Digest faulted = .next t ∧ t.phaseOf .sha1 = .faulted) ∧
    (∃ t, exec .sha1Digest (active noMem) = .next t ∧ t.rc = 0 ∧ Instr.sha1Digest.operation ≠ .erase) ∧
    (∃ t, exec .sha1Erase faulted = .next t ∧ Instr.sha1Erase.operation = .erase ∧ faulted.Inv ∧
      t.phaseOf .sha1 ≠ .faulted) ∧
    (waiting [.reset] faulted).inbox = .reset :: [] :=
  ⟨⟨_, rfl, by decide, by decide⟩, ⟨_, rfl, by decide⟩, ⟨_, rfl, by decide, by decide⟩, ⟨_, rfl, by decide, faulted_inv, by decide⟩, rfl⟩

/-- Two commands that draw nothing, and one that draws (a `ReadFault` at block 1) beside one that does not. -/
theorem witness_CommandsOfDifferentCoresCommute :
    (Instr.sha1Finish 0 0 0).coreId ≠ Instr.sha256Digest.coreId ∧ (active noMem).epi = List.replicate 256 0 ∧
    (∃ a, exec (.sha1Finish 0 0 0) (active noMem) = .next a ∧ a.draws = (active noMem).draws) ∧
    (∃ b, exec .sha256Digest (active noMem) = .next b ∧ b.draws = (active noMem).draws) ∧
    (∃ a, exec .sha1Digest (active (bytesFrom 0x1000 (count 64))) = .next a ∧
      a.draws = (active (bytesFrom 0x1000 (count 64))).draws) ∧
    ∃ b, exec (.sha256Cycle 0x1000 2) (active (bytesFrom 0x1000 (count 64))) = .next b ∧
      b.draws ≠ (active (bytesFrom 0x1000 (count 64))).draws :=
  ⟨by decide, rfl, ⟨_, rfl, rfl⟩, ⟨_, rfl, rfl⟩, ⟨_, rfl, rfl⟩, _, rfl, by decide +kernel⟩

/-- The statements on the three SHA compression functions take 16 block words. -/
theorem witness_ShaCompressionRounds :
    (blockWords (beWord 32) abcBlock32).length = 16 ∧ (blockWords (beWord 64) abcBlock64).length = 16 := by decide

end Sys2Proof.Tests
end

section
/-! PROOFS. The statements of `00_scope.md`: the model's memory represents every host memory (R10), words and bytes
convert back (R14), the rotates follow their formula (R13). -/

namespace Sys2Proof.Machine

/-! ### Every host memory is represented -/

/-- Writing `msg` address by address from the bottom reaches every assignment of bytes below `n`. -/
theorem exists_memory_holding (msg : Nat → Byte) {n : Nat} (hn : n ≤ Config.addrSpace) :
    ∃ m : Memory, m.wf = true ∧ ∀ a, a < n → m.byte a = msg a := by
  induction n with
  | zero => exact ⟨Memory.allReadable, Memory.allReadable_wf, fun a ha => absurd ha (Nat.not_lt_zero a)⟩
  | succ n ih =>
    obtain ⟨m, hwf, hm⟩ := ih (Nat.le_of_succ_le hn)
    refine ⟨m.write n (msg n), Memory.write_wf _ hwf hn, fun a ha => ?_⟩
    rcases Nat.lt_succ_iff_lt_or_eq.mp ha with hlt | rfl
    · rw [Memory.byte_write_other m _ (Nat.ne_of_lt hlt), hm a hlt]
    · exact Memory.byte_write_same a _ hwf

/-- One range of a single address for each readable address covers exactly the readable addresses. -/
theorem exists_ranges_covering (readable : Nat → Bool) (n : Nat) :
    ∃ ranges : List Region,
      ∀ a, (∃ r ∈ ranges, r.first ≤ a ∧ a < r.past) ↔ a < n ∧ readable a = true := by
  refine ⟨((List.range n).filter readable).map fun a => ⟨a, a + 1⟩, fun a => ?_⟩
  simp only [List.mem_map, List.mem_filter, List.mem_range, exists_exists_and_eq_and]
  constructor
  · rintro ⟨b, hb, hle, hlt⟩
    obtain rfl : b = a := by omega
    exact hb
  · intro ha
    exact ⟨a, ha, Nat.le_refl a, Nat.lt_succ_self a⟩

/-- Settles O18: write the bytes into a canonical memory, then make exactly the readable addresses readable. -/
theorem everyHostMemoryIsRepresented : Obligations.EveryHostMemoryIsRepresented := by
  intro msg readable
  obtain ⟨m, hwf, hbyte⟩ := exists_memory_holding msg (Nat.le_refl Config.addrSpace)
  obtain ⟨ranges, hranges⟩ := exists_ranges_covering readable Config.addrSpace
  have hread (a : Nat) :
      (m.setReadable ranges).readable a = true ↔ a < Config.addrSpace ∧ readable a = true := by
    rw [Memory.readable_setReadable, hranges, ← and_assoc, and_self]
  refine ⟨m.setReadable ranges, Memory.setReadable_wf ranges hwf, fun a ha => ⟨hbyte a ha, ?_⟩, fun a ha => ?_⟩
  · exact Bool.eq_iff_iff.mpr ((hread a).trans (and_iff_right ha))
  · exact Bool.eq_false_iff.mpr fun h => Nat.not_lt.mpr ha ((hread a).mp h).1

/-! ### Words and bytes -/

@[simp] theorem toLeBytes_length {w : Nat} (v : BitVec w) : (toLeBytes v).length = w / 8 := by
  simp [toLeBytes]

/-- The two byte orders list the same bytes from opposite ends. -/
theorem toBeBytes_eq_reverse {w : Nat} (v : BitVec w) : toBeBytes v = (toLeBytes v).reverse := by
  refine List.ext_getElem (by simp [toBeBytes, toLeBytes]) fun i _ _ => ?_
  simp [toBeBytes, toLeBytes]

theorem beNat_eq_leNat_reverse (b : List Byte) : beNat b = leNat b.reverse := by
  simp [beNat, leNat, Nat.add_comm]

theorem beWord_eq_leWord_reverse (w : Nat) (b : List Byte) : beWord w b = leWord w b.reverse := by
  rw [beWord, leWord, beNat_eq_leNat_reverse]

/-- A byte sequence read least significant byte first is a number written in base 256. -/
theorem leNat_eq_ofDigits (b : List Byte) : leNat b = Nat.ofDigits 256 (b.map BitVec.toNat) := by
  simp [leNat, Nat.ofDigits_eq_foldr, List.foldr_map]

theorem digit_lt_of_mem_bytes (b : List Byte) : ∀ d ∈ b.map BitVec.toNat, d < 256 := by
  simp only [List.mem_map]
  rintro d ⟨x, -, rfl⟩
  exact x.isLt

theorem leNat_lt (b : List Byte) : leNat b < 256 ^ b.length := by
  simpa [leNat_eq_ofDigits] using Nat.ofDigits_lt_base_pow_length (by decide) (digit_lt_of_mem_bytes b)

/-- Byte sequences of one length that read as one number are equal. -/
theorem eq_of_leNat_eq {b c : List Byte} (hlen : b.length = c.length) (h : leNat b = leNat c) : b = c := by
  rw [leNat_eq_ofDigits, leNat_eq_ofDigits] at h
  refine List.map_injective_iff.mpr (fun x y => BitVec.eq_of_toNat_eq) ?_
  exact Nat.ofDigits_inj_of_len_eq (by decide) (by simpa using hlen) (digit_lt_of_mem_bytes b)
    (digit_lt_of_mem_bytes c) h

/-- The lowest `n` bytes of a word read as the word modulo `256 ^ n`. -/
theorem leNat_lowBytes {w : Nat} (v : BitVec w) (n : Nat) :
    leNat ((List.range n).map fun i => v.extractLsb' (8 * i) 8) = v.toNat % 256 ^ n := by
  induction n with
  | zero => simp [leNat, Nat.mod_one]
  | succ n ih =>
    rw [leNat_eq_ofDigits] at ih ⊢
    rw [List.range_succ, List.map_append, List.map_append, Nat.ofDigits_append, ih, Nat.mod_pow_succ]
    simp [Nat.shiftRight_eq_div_pow, Nat.pow_mul]

/-- The bytes of a word of whole bytes read as the word's number. -/
theorem leNat_toLeBytes {w : Nat} (hw : 8 ∣ w) (v : BitVec w) : leNat (toLeBytes v) = v.toNat := by
  have hpow : 256 ^ (w / 8) = 2 ^ w := by
    rw [show 256 = 2 ^ 8 from rfl, ← Nat.pow_mul, Nat.mul_div_cancel' hw]
  rw [toLeBytes, leNat_lowBytes, hpow, Nat.mod_eq_of_lt v.isLt]

theorem leWord_toLeBytes {w : Nat} (hw : 8 ∣ w) (v : BitVec w) : leWord w (toLeBytes v) = v := by
  rw [leWord, leNat_toLeBytes hw, BitVec.ofNat_toNat, BitVec.setWidth_eq]

theorem beWord_toBeBytes {w : Nat} (hw : 8 ∣ w) (v : BitVec w) : beWord w (toBeBytes v) = v := by
  rw [beWord_eq_leWord_reverse, toBeBytes_eq_reverse, List.reverse_reverse, leWord_toLeBytes hw]

theorem toLeBytes_leWord {w : Nat} {b : List Byte} (hb : w = 8 * b.length) : toLeBytes (leWord w b) = b := by
  have hlt : leNat b < 2 ^ w := by
    rw [hb, Nat.pow_mul]
    exact leNat_lt b
  refine eq_of_leNat_eq (by rw [toLeBytes_length]; omega) ?_
  rw [leNat_toLeBytes ⟨_, hb⟩, leWord, BitVec.toNat_ofNat, Nat.mod_eq_of_lt hlt]

theorem toBeBytes_beWord {w : Nat} {b : List Byte} (hb : w = 8 * b.length) : toBeBytes (beWord w b) = b := by
  rw [beWord_eq_leWord_reverse, toBeBytes_eq_reverse, toLeBytes_leWord (by simpa using hb), List.reverse_reverse]

/-- Settles O37: the conversions of R14 undo each other at both widths. -/
theorem wordsAndBytesConvertBack : Obligations.WordsAndBytesConvertBack := by
  refine ⟨fun x => ?_, fun x => ?_, fun b hb => ?_, fun b hb => ?_⟩
  · exact ⟨beWord_toBeBytes (by decide) x, leWord_toLeBytes (by decide) x⟩
  · exact ⟨beWord_toBeBytes (by decide) x, leWord_toLeBytes (by decide) x⟩
  · exact ⟨toBeBytes_beWord (by rw [hb]), toLeBytes_leWord (by rw [hb])⟩
  · exact ⟨toBeBytes_beWord (by rw [hb]), toLeBytes_leWord (by rw [hb])⟩

/-! ### Rotates -/

/-- Bit `i` of a left rotate by `n`: the top `n` bits come round to the bottom, the others move up by `n`. -/
theorem getLsbD_rotl {w : Nat} (x : BitVec w) {n i : Nat} (hn : 0 < n) (hw : n < w) (hi : i < w) :
    (rotl x n).getLsbD i = if i < n then x.getLsbD (w - n + i) else x.getLsbD (i - n) := by
  have hrotl : rotl x n = x.rotateLeft n := by
    rw [rotl, if_neg (Nat.ne_of_gt hn), BitVec.rotateLeft_def, Nat.mod_eq_of_lt hw]
  rw [hrotl, BitVec.getLsbD_rotateLeft, Nat.mod_eq_of_lt hw]
  simp [hi, Bool.cond_decide]

theorem rotl_toNat {w : Nat} (x : BitVec w) {n : Nat} (hn : 0 < n) :
    (rotl x n).toNat = (x.toNat * 2 ^ n % 2 ^ w) ||| (x.toNat / 2 ^ (w - n)) := by
  rw [rotl, if_neg (Nat.ne_of_gt hn), BitVec.toNat_or, BitVec.toNat_shiftLeft, BitVec.toNat_ushiftRight,
    Nat.shiftLeft_eq, Nat.shiftRight_eq_div_pow]

theorem rotr_eq_rotl {w : Nat} (x : BitVec w) {n : Nat} (hn : 0 < n) (hw : n < w) : rotr x n = rotl x (w - n) := by
  rw [rotr, Nat.mod_eq_of_lt (by omega)]

/-- Rotating by `n` and then on by the remaining `w - n` goes once round the word. -/
theorem rotl_sub_rotl {w : Nat} (x : BitVec w) {n : Nat} (hn : 0 < n) (hw : n < w) :
    rotl (rotl x n) (w - n) = x := by
  refine BitVec.eq_of_getLsbD_eq fun i hi => ?_
  rw [getLsbD_rotl _ (by omega) (by omega) hi]
  split
  case isTrue hlow =>
    rw [getLsbD_rotl x hn hw (by omega), if_neg (by omega)]
    congr 1
    omega
  case isFalse hhigh =>
    rw [getLsbD_rotl x hn hw (by omega), if_pos (by omega)]
    congr 1
    omega

/-- R13's three claims for one width. -/
theorem rotates_follow_formula {w : Nat} (x : BitVec w) (n : Nat) (hn : 0 < n) (hw : n < w) :
    (rotl x n).toNat = (x.toNat * 2 ^ n % 2 ^ w) ||| (x.toNat / 2 ^ (w - n)) ∧
      rotr x n = rotl x (w - n) ∧ rotr (rotl x n) n = x :=
  ⟨rotl_toNat x hn, rotr_eq_rotl x hn hw, (rotr_eq_rotl _ hn hw).trans (rotl_sub_rotl x hn hw)⟩

/-- Settles O38: the general formula at both widths. -/
theorem rotatesFollowTheirFormula : Obligations.RotatesFollowTheirFormula :=
  ⟨rotates_follow_formula, rotates_follow_formula⟩

end Sys2Proof.Machine
end

section
/-! SUPPORT. The four cores handled as one: a core's registers, view and effect by its name, every command as one operation
over its core's `Alg`, and what an operation can do, said once. -/

namespace Sys2Proof.Machine

/-! ### A core by its name -/

/-- The HashState of each core (`10_state.md` R21). -/
abbrev HashOf : CoreId → Type
  | .ripemd256 => Hash8 32
  | .sha1 => Hash5 32
  | .sha256 => Hash8 32
  | .sha384 => Hash8 64

/-- The algorithm of each core. -/
def algOf : (c : CoreId) → Alg (HashOf c)
  | .ripemd256 => ripemd256Alg
  | .sha1 => sha1Alg
  | .sha256 => sha256Alg
  | .sha384 => sha384Alg

/-- The registers of core `c`. -/
def State.regsOf (s : State) : (c : CoreId) → CoreRegs (HashOf c)
  | .ripemd256 => s.ripemd256
  | .sha1 => s.sha1
  | .sha256 => s.sha256
  | .sha384 => s.sha384

/-- What a command of core `c` can read. -/
def State.viewOf (s : State) (c : CoreId) : View (HashOf c) := ⟨s.regsOf c, s.epi, s.draws, s.mem⟩

/-- The state after a command of core `c` with effect `e`. -/
def State.putOf (s : State) : (c : CoreId) → Effect (HashOf c) → State
  | .ripemd256, e => s.putRipemd256 e
  | .sha1, e => s.putSha1 e
  | .sha256, e => s.putSha256 e
  | .sha384, e => s.putSha384 e

section Fields

variable (s : State) (c : CoreId) (e : Effect (HashOf c))

@[simp] theorem State.viewOf_regs : (s.viewOf c).regs = s.regsOf c := rfl
@[simp] theorem State.viewOf_epi : (s.viewOf c).epi = s.epi := rfl
@[simp] theorem State.viewOf_draws : (s.viewOf c).draws = s.draws := rfl
@[simp] theorem State.viewOf_mem : (s.viewOf c).mem = s.mem := rfl

@[simp] theorem State.regsOf_phase : (s.regsOf c).phase = s.phaseOf c := by cases c <;> rfl
@[simp] theorem State.regsOf_fcode : (s.regsOf c).fcode = s.fcodeOf c := by cases c <;> rfl

@[simp] theorem State.putOf_epi : (s.putOf c e).epi = e.epi := by cases c <;> rfl
@[simp] theorem State.putOf_cw : (s.putOf c e).cw = s.cw := by cases c <;> rfl
@[simp] theorem State.putOf_a0 : (s.putOf c e).a0 = s.a0 := by cases c <;> rfl
@[simp] theorem State.putOf_a1 : (s.putOf c e).a1 = s.a1 := by cases c <;> rfl
@[simp] theorem State.putOf_a2 : (s.putOf c e).a2 = s.a2 := by cases c <;> rfl
@[simp] theorem State.putOf_rc : (s.putOf c e).rc = e.rc := by cases c <;> rfl
@[simp] theorem State.putOf_rdata : (s.putOf c e).rdata = e.rdata := by cases c <;> rfl
@[simp] theorem State.putOf_mem : (s.putOf c e).mem = s.mem := by cases c <;> rfl
@[simp] theorem State.putOf_inbox : (s.putOf c e).inbox = s.inbox := by cases c <;> rfl
@[simp] theorem State.putOf_draws : (s.putOf c e).draws = e.draws := by cases c <;> rfl

@[simp] theorem State.regsOf_putOf_same : (s.putOf c e).regsOf c = e.regs := by cases c <;> rfl

@[simp] theorem State.phaseOf_putOf_same : (s.putOf c e).phaseOf c = e.regs.phase := by
  rw [← State.regsOf_phase, State.regsOf_putOf_same]

@[simp] theorem State.fcodeOf_putOf_same : (s.putOf c e).fcodeOf c = e.regs.fcode := by
  rw [← State.regsOf_fcode, State.regsOf_putOf_same]

end Fields

section OtherCore

variable {c d : CoreId} (s : State) (e : Effect (HashOf c)) (h : d ≠ c)
include h

/-- A command of core `c` leaves the registers of every other core (`10_state.md` R41). -/
@[simp] theorem State.regsOf_putOf_other : (s.putOf c e).regsOf d = s.regsOf d := by
  revert h
  cases c <;> cases d <;> simp [State.putOf, State.regsOf]

@[simp] theorem State.phaseOf_putOf_other : (s.putOf c e).phaseOf d = s.phaseOf d := by
  rw [← State.regsOf_phase, State.regsOf_putOf_other s e h, State.regsOf_phase]

@[simp] theorem State.fcodeOf_putOf_other : (s.putOf c e).fcodeOf d = s.fcodeOf d := by
  rw [← State.regsOf_fcode, State.regsOf_putOf_other s e h, State.regsOf_fcode]

/-- Another core sees of a command only what it left in `EPI` and the count of free values. -/
theorem State.viewOf_putOf_other :
    (s.putOf c e).viewOf d = { s.viewOf d with epi := e.epi, draws := e.draws } := by
  simp [State.viewOf, h]

/-- Effects on two cores that leave the same `EPI` and count of free values may be put in either order, but for the
response, which is the later one's. -/
theorem State.putOf_comm {e' : Effect (HashOf c)} {f f' : Effect (HashOf d)} (he : e'.regs = e.regs)
    (hf : f'.regs = f.regs) (hepi : e'.epi = f'.epi) (hdraws : e'.draws = f'.draws) :
    { (s.putOf c e).putOf d f' with rc := 0, rdata := [] } =
      { (s.putOf d f).putOf c e' with rc := 0, rdata := [] } := by
  revert h
  cases c <;> cases d <;>
    simp_all [State.putOf, State.putRipemd256, State.putSha1, State.putSha256, State.putSha384]

end OtherCore

theorem sameCore_iff {c : CoreId} {s t : State} : SameCore c s t ↔ t.regsOf c = s.regsOf c := by
  cases c <;> exact Iff.rfl

theorem clearedCore_iff {c : CoreId} {s : State} : ClearedCore c s ↔ s.regsOf c = .cleared (algOf c).zero := by
  cases c <;> exact Iff.rfl

/-- The invariant says the same of each core. -/
theorem State.inv_iff {s : State} : s.Inv ↔
    s.mem.wf = true ∧ s.epi = List.replicate 256 0 ∧ s.rdata.length = 48 ∧ s.rc.toNat ≤ 5 ∧
      (s.rc ≠ 0 → s.rdata = List.replicate 48 0) ∧ ∀ c, CoreInv (algOf c).zero (s.regsOf c) := by
  constructor
  · rintro ⟨hmem, hepi, hlen, hrc, hdata, h1, h2, h3, h4⟩
    refine ⟨hmem, hepi, hlen, hrc, hdata, fun c => ?_⟩
    cases c
    · exact h1
    · exact h2
    · exact h3
    · exact h4
  · rintro ⟨hmem, hepi, hlen, hrc, hdata, hcore⟩
    exact ⟨hmem, hepi, hlen, hrc, hdata, hcore .ripemd256, hcore .sha1, hcore .sha256, hcore .sha384⟩

/-! ### Every command is an operation over its core's algorithm -/

/-- The operation `op` over the algorithm `A` (`40_sequencer.md` R120). -/
def runOperation {α : Type} (A : Alg α) (op : Operation) (a0 a1 a2 : Word64) (v : View α) : Effect α :=
  match op with
  | .init => initCommand A v
  | .cycle => cycleCommand A a0 a1 v
  | .finish => finishCommand A a0 a1 a2 v
  | .digest => digestCommand A v
  | .erase => eraseCommand A v

/-- What the command `i` makes of the view of its core. -/
def Instr.effectOn (i : Instr) (v : View (HashOf i.coreId)) : Effect (HashOf i.coreId) :=
  runOperation (algOf i.coreId) i.operation (encode i).a0 (encode i).a1 (encode i).a2 v

theorem exec_eq_next (i : Instr) (s : State) :
    exec i s = .next (s.putOf i.coreId (Instr.effectOn i (s.viewOf i.coreId))) := by
  cases i <;> rfl

theorem exec_next_iff {i : Instr} {s t : State} :
    exec i s = .next t ↔ t = s.putOf i.coreId (Instr.effectOn i (s.viewOf i.coreId)) := by
  rw [exec_eq_next, Host.Outcome.next.injEq, eq_comm]

/-! ### What an operation can do -/

/-- The faults an operation's own checks raise, after the phase test (`60_exceptions.md` R272). -/
def operandFaults : Operation → List Cause
  | .init => []
  | .cycle => [.addrRange, .readFault]
  | .finish => [.tailTooLong, .addrRange, .readFault]
  | .digest => []
  | .erase => []

/-- What a raised fault leaves of the core and the response (`60_exceptions.md` R273). -/
structure FaultEffect {α : Type} (v : View α) (c : Cause) (e : Effect α) : Prop where
  rc : e.rc = causeRc c
  rdata : e.rdata = noData
  phase : e.regs.phase = .faulted
  fcode : e.regs.fcode = fcodeAfter v.regs.phase v.regs.fcode c

/-- What an operation that answers OK leaves of the core and the response (`10_state.md` R25, R26, `30_encoding.md` R95). -/
structure OkEffect {α : Type} (A : Alg α) (op : Operation) (v : View α) (e : Effect α) : Prop where
  rc : e.rc = 0
  rdata : e.rdata = if op = .digest then padResponse (digestBytes A v.regs.h) else noData
  phase : e.regs.phase = phaseAfter op v.regs.phase
  fcode : e.regs.fcode = if op = .erase then 0 else v.regs.fcode
  erased : op = .erase → e.regs = .cleared A.zero

section Operations

variable {α : Type} (A : Alg α) (op : Operation) (a0 a1 a2 : Word64) (v : View α)

theorem faultEffect_raise {v : View α} (c : Cause) {w : View α} (hp : w.regs.phase = v.regs.phase)
    (hf : w.regs.fcode = v.regs.fcode) : FaultEffect v c (raise c w) :=
  ⟨rfl, rfl, rfl, by rw [raise_fcode, hp, hf]⟩

/-- The phase test refuses, a check of the operands fails, or the operation answers OK. -/
theorem runOperation_cases :
    (admits op v.regs.phase = false ∧ FaultEffect v .badPhase (runOperation A op a0 a1 a2 v)) ∨
    (admits op v.regs.phase = true ∧ ∃ c ∈ operandFaults op, FaultEffect v c (runOperation A op a0 a1 a2 v)) ∨
    (admits op v.regs.phase = true ∧ OkEffect A op v (runOperation A op a0 a1 a2 v)) := by
  cases op with
  | init =>
    rcases initCommand_cases A v with ⟨hp, h⟩ | ⟨hp, h⟩ <;> rw [runOperation, h]
    · exact .inr (.inr ⟨hp, rfl, rfl, rfl, rfl, nofun⟩)
    · exact .inl ⟨hp, faultEffect_raise _ rfl rfl⟩
  | cycle =>
    rcases cycleCommand_cases A a0 a1 v with ⟨hp, h⟩ | ⟨hp, -, h⟩ | ⟨k, hp, -, -, h⟩ | ⟨x, hp, -, -, h⟩ <;>
      rw [runOperation, h]
    · exact .inl ⟨hp, faultEffect_raise _ rfl rfl⟩
    · exact .inr (.inl ⟨hp, .addrRange, by simp [operandFaults], faultEffect_raise _ rfl rfl⟩)
    · exact .inr (.inl ⟨hp, .readFault, by simp [operandFaults], faultEffect_raise _ (by simp) (by simp)⟩)
    · exact .inr (.inr ⟨hp, rfl, rfl, rfl, rfl, nofun⟩)
  | finish =>
    rcases finishCommand_cases A a0 a1 a2 v with
      ⟨hp, h⟩ | ⟨hp, -, h⟩ | ⟨hp, -, -, h⟩ | ⟨hp, -, -, -, h⟩ | ⟨t, hp, -, -, -, h⟩ <;> rw [runOperation, h]
    · exact .inl ⟨hp, faultEffect_raise _ rfl rfl⟩
    · exact .inr (.inl ⟨hp, .tailTooLong, by simp [operandFaults], faultEffect_raise _ rfl rfl⟩)
    · exact .inr (.inl ⟨hp, .addrRange, by simp [operandFaults], faultEffect_raise _ rfl rfl⟩)
    · exact .inr (.inl ⟨hp, .readFault, by simp [operandFaults], faultEffect_raise _ rfl rfl⟩)
    · exact .inr (.inr ⟨hp, rfl, rfl, rfl, rfl, nofun⟩)
  | digest =>
    rcases digestCommand_cases A v with ⟨hp, h⟩ | ⟨hp, h⟩ <;> rw [runOperation, h]
    · exact .inr (.inr ⟨hp, rfl, rfl, rfl, rfl, nofun⟩)
    · exact .inl ⟨hp, faultEffect_raise _ rfl rfl⟩
  | erase => exact .inr (.inr ⟨rfl, rfl, rfl, rfl, rfl, fun _ => rfl⟩)

theorem ne_illegalCommand_of_mem_operandFaults {op : Operation} {c : Cause} (h : c ∈ operandFaults op) :
    c ≠ .illegalCommand := by
  rintro rfl
  cases op <;> simp [operandFaults] at h

/-- `IllegalCommand` is no fault of a decoded command (`60_exceptions.md` R270). -/
theorem runOperation_fault_or_ok :
    (∃ c, c ≠ .illegalCommand ∧ FaultEffect v c (runOperation A op a0 a1 a2 v)) ∨
    (admits op v.regs.phase = true ∧ OkEffect A op v (runOperation A op a0 a1 a2 v)) := by
  rcases runOperation_cases A op a0 a1 a2 v with ⟨-, h⟩ | ⟨-, c, hc, h⟩ | h
  · exact .inl ⟨.badPhase, nofun, h⟩
  · exact .inl ⟨c, ne_illegalCommand_of_mem_operandFaults hc, h⟩
  · exact .inr h

/-- `EPI` is left as it was or wiped (`45_eraser.md` R254). -/
theorem runOperation_epi :
    (runOperation A op a0 a1 a2 v).epi = v.epi ∨
      (runOperation A op a0 a1 a2 v).epi = List.replicate 256 0 := by
  cases op with
  | init => rcases initCommand_cases A v with ⟨-, h⟩ | ⟨-, h⟩ <;> exact .inl (by rw [runOperation, h]; rfl)
  | cycle =>
    rcases cycleCommand_cases A a0 a1 v with ⟨-, h⟩ | ⟨-, -, h⟩ | ⟨k, -, -, -, h⟩ | ⟨x, -, -, -, h⟩ <;>
      exact .inl (by simp [runOperation, h])
  | finish =>
    rcases finishCommand_cases A a0 a1 a2 v with
      ⟨-, h⟩ | ⟨-, -, h⟩ | ⟨-, -, -, h⟩ | ⟨-, -, -, -, h⟩ | ⟨t, -, -, -, -, h⟩ <;> rw [runOperation, h]
    · exact .inl rfl
    all_goals exact .inr rfl
  | digest => rcases digestCommand_cases A v with ⟨-, h⟩ | ⟨-, h⟩ <;> exact .inl (by rw [runOperation, h]; rfl)
  | erase => exact .inl rfl

/-- `EPI` stays all zero (`10_state.md` R32). -/
theorem runOperation_epi_zero {v : View α} (h : v.epi = List.replicate 256 0) :
    (runOperation A op a0 a1 a2 v).epi = List.replicate 256 0 :=
  (runOperation_epi A op a0 a1 a2 v).elim (·.trans h) id

end Operations

end Sys2Proof.Machine
end

section
/-! PROOFS. The statements of `10_state.md`: the reset state (R40), the invariant of the machine, what a command changes and
what it reads (R41), the phase table (R25) and the fault code (R26). -/

namespace Sys2Proof.Machine

/-! ### Reset -/

theorem clearedCore_resetOn (m : Memory) (c : CoreId) : ClearedCore c (State.resetOn m) := by
  cases c <;> rfl

theorem clearedCore_resetBlock (s : State) (c : CoreId) : ClearedCore c s.resetBlock := by
  cases c <;> rfl

/-- Settles O11: each field of the reset state, and of the state after each of the two reset inputs. -/
theorem resetInputGivesResetState : Obligations.ResetInputGivesResetState := by
  refine ⟨fun m => ⟨clearedCore_resetOn m, rfl, rfl, rfl, rfl⟩, clearedCore_resetOn _, rfl, rfl, rfl,
    fun a ha => Memory.readable_allReadable ha, fun s rest h => ?_, fun s c rest h => ?_⟩
  · exact ⟨(s.setInbox rest).resetBlock, step_input h, clearedCore_resetBlock _, rfl, rfl, rfl, rfl, rfl, rfl, rfl, rfl,
      rfl⟩
  · exact ⟨((s.setInbox rest).setPort c).resetBlock, step_input h, clearedCore_resetBlock _, rfl, rfl, rfl, rfl, rfl, rfl,
      rfl, rfl, rfl⟩

/-! ### The invariant -/

theorem coreInv_cleared {α : Type} (zero : α) : CoreInv zero (.cleared zero) :=
  ⟨by simp [CoreRegs.cleared], .inl rfl, fun _ => rfl⟩

/-- A state whose core registers and response are those of reset meets the invariant beside any canonical memory. -/
theorem State.inv_of_cleared {s : State} (hmem : s.mem.wf = true) (hcore : ∀ c, ClearedCore c s)
    (hepi : s.epi = List.replicate 256 0) (hrc : s.rc = 0) (hrdata : s.rdata = noData) : s.Inv := by
  refine State.inv_iff.mpr ⟨hmem, hepi, by rw [hrdata, noData_length], by simp [hrc], fun _ => hrdata, fun c => ?_⟩
  rw [clearedCore_iff.mp (hcore c)]
  exact coreInv_cleared _

theorem State.inv_resetOn {m : Memory} (h : m.wf = true) : (State.resetOn m).Inv :=
  State.inv_of_cleared h (clearedCore_resetOn m) rfl rfl rfl

theorem State.inv_resetBlock {s : State} (h : s.mem.wf = true) : s.resetBlock.Inv :=
  State.inv_of_cleared h (clearedCore_resetBlock s) rfl rfl rfl

/-- Settles O12: every core is cleared at reset. -/
theorem resetStateMeetsInvariant : Obligations.ResetStateMeetsInvariant :=
  ⟨State.inv_resetOn Memory.allReadable_wf, fun _ => State.inv_resetOn⟩

/-- The code of a fault of a decoded command, as `fcode[c]` and as `RC` hold it. -/
theorem causeCode_range {c : Cause} (h : c ≠ .illegalCommand) :
    causeCode c ≠ 0 ∧ 2 ≤ (causeCode c).toNat ∧ (causeCode c).toNat ≤ 5 := by
  revert h
  cases c <;> decide

theorem causeRc_cases {c : Cause} (h : c ≠ .illegalCommand) :
    causeRc c = 2 ∨ causeRc c = 3 ∨ causeRc c = 4 ∨ causeRc c = 5 := by
  revert h
  cases c <;> decide

theorem causeRc_ne_zero (c : Cause) : causeRc c ≠ 0 := by
  cases c <;> decide

theorem causeRc_toNat (c : Cause) : (causeRc c).toNat = (causeCode c).toNat := by
  cases c <;> rfl

@[simp] theorem fcodeAfter_faulted (f : BitVec 3) (c : Cause) : fcodeAfter .faulted f c = f := rfl

theorem fcodeAfter_of_ne_faulted {p : Phase} (h : p ≠ .faulted) (f : BitVec 3) (c : Cause) :
    fcodeAfter p f c = causeCode c := by
  cases p with
  | faulted => exact absurd rfl h
  | idle | active | final => rfl

/-- ERASE apart, an admitted operation starts outside FAULTED and ends outside FAULTED and IDLE. -/
theorem phases_of_admits {op : Operation} {p : Phase} (hop : op ≠ .erase) (h : admits op p = true) :
    p ≠ .faulted ∧ phaseAfter op p ≠ .faulted ∧ phaseAfter op p ≠ .idle := by
  revert hop h
  cases op <;> cases p <;> decide

/-- `RDATA` is 48 bytes for every digest, since `DS` is at most 48 (`10_state.md` R28). -/
theorem digestBytes_length_le (c : CoreId) (h : HashOf c) : (digestBytes (algOf c) h).length ≤ 48 := by
  have hds : (algOf c).ds ≤ 48 := by cases c <;> decide
  exact (List.length_take_le _ _).trans hds

section Core

variable {α : Type} {A : Alg α} {op : Operation} {v : View α} {e : Effect α}

/-- A raised fault keeps the invariant of its core: the code latched is one of 2 to 5, or was latched before. -/
theorem FaultEffect.coreInv {c : Cause} (he : FaultEffect v c e) (hc : c ≠ .illegalCommand)
    (hi : CoreInv A.zero v.regs) : CoreInv A.zero e.regs := by
  obtain ⟨hcode, hrange⟩ := causeCode_range hc
  have hf : e.regs.fcode ≠ 0 ∧ 2 ≤ e.regs.fcode.toNat ∧ e.regs.fcode.toNat ≤ 5 := by
    rw [he.fcode]
    by_cases hp : v.regs.phase = .faulted
    · have hne := hi.faulted_iff_code.mp hp
      rw [hp]
      exact ⟨hne, hi.code_range.resolve_left hne⟩
    · rw [fcodeAfter_of_ne_faulted hp]
      exact ⟨hcode, hrange⟩
  refine ⟨iff_of_true he.phase hf.1, .inr hf.2, fun hidle => ?_⟩
  rw [he.phase] at hidle
  cases hidle

/-- An OK answer keeps the invariant of its core: ERASE clears it, and the other operations start with the fault code 0
and end in ACTIVE or FINAL. -/
theorem OkEffect.coreInv (he : OkEffect A op v e) (hadm : admits op v.regs.phase = true)
    (hi : CoreInv A.zero v.regs) : CoreInv A.zero e.regs := by
  by_cases hop : op = .erase
  · rw [he.erased hop]
    exact coreInv_cleared _
  · obtain ⟨hp, hp', hidle⟩ := phases_of_admits hop hadm
    rw [← he.phase] at hp' hidle
    have hf : e.regs.fcode = 0 := by
      rw [he.fcode, if_neg hop]
      exact not_not.mp (mt hi.faulted_iff_code.mpr hp)
    exact ⟨iff_of_false hp' (not_not.mpr hf), .inl hf, fun h => absurd h hidle⟩

end Core

section Command

variable (i : Instr) (s : State)

/-- What a decoded command leaves of its core and the response. -/
theorem effectOn_fault_or_ok :
    (∃ c, c ≠ .illegalCommand ∧ FaultEffect (s.viewOf i.coreId) c (Instr.effectOn i (s.viewOf i.coreId))) ∨
    (admits i.operation (s.phaseOf i.coreId) = true ∧
      OkEffect (algOf i.coreId) i.operation (s.viewOf i.coreId) (Instr.effectOn i (s.viewOf i.coreId))) := by
  rw [← State.regsOf_phase]
  exact runOperation_fault_or_ok _ _ _ _ _ _

theorem effectOn_coreInv (h : CoreInv (algOf i.coreId).zero (s.regsOf i.coreId)) :
    CoreInv (algOf i.coreId).zero (Instr.effectOn i (s.viewOf i.coreId)).regs := by
  rcases effectOn_fault_or_ok i s with ⟨c, hc, he⟩ | ⟨hadm, he⟩
  · exact he.coreInv hc h
  · exact he.coreInv (by simpa using hadm) h

theorem effectOn_rc :
    (Instr.effectOn i (s.viewOf i.coreId)).rc = 0 ∨ (Instr.effectOn i (s.viewOf i.coreId)).rc = 2 ∨
      (Instr.effectOn i (s.viewOf i.coreId)).rc = 3 ∨ (Instr.effectOn i (s.viewOf i.coreId)).rc = 4 ∨
      (Instr.effectOn i (s.viewOf i.coreId)).rc = 5 := by
  rcases effectOn_fault_or_ok i s with ⟨c, hc, he⟩ | ⟨-, he⟩
  · exact .inr (he.rc ▸ causeRc_cases hc)
  · exact .inl he.rc

theorem effectOn_rdata_length : (Instr.effectOn i (s.viewOf i.coreId)).rdata.length = 48 := by
  rcases effectOn_fault_or_ok i s with ⟨c, -, he⟩ | ⟨-, he⟩
  · rw [he.rdata, noData_length]
  · rw [he.rdata]
    split
    · exact padResponse_length (digestBytes_length_le _ _)
    · exact noData_length

/-- Data comes only with an OK DIGEST (`30_encoding.md` R95). -/
theorem effectOn_rdata_zero (h : (Instr.effectOn i (s.viewOf i.coreId)).rc ≠ 0 ∨ i.operation ≠ .digest) :
    (Instr.effectOn i (s.viewOf i.coreId)).rdata = noData := by
  rcases effectOn_fault_or_ok i s with ⟨c, -, he⟩ | ⟨-, he⟩
  · exact he.rdata
  · rw [he.rdata, if_neg (h.resolve_left (not_not.mpr he.rc))]

end Command

/-- Settles O15: the response of the effect, whether a fault was raised or the operation answered OK. -/
theorem everyCommandAnswers : Obligations.EveryCommandAnswers := by
  intro i s
  refine ⟨_, exec_eq_next i s, ?_⟩
  simp only [State.putOf_rc, State.putOf_rdata]
  exact ⟨effectOn_rc i s, effectOn_rdata_length i s, effectOn_rdata_zero i s⟩

/-- Every command keeps the invariant. -/
theorem exec_inv {i : Instr} {s t : State} (hs : s.Inv) (h : exec i s = .next t) : t.Inv := by
  obtain rfl := exec_next_iff.mp h
  obtain ⟨hmem, hepi, -, -, -, hcore⟩ := State.inv_iff.mp hs
  refine State.inv_iff.mpr ⟨?_, ?_, ?_, ?_, ?_, fun c => ?_⟩
  · rwa [State.putOf_mem]
  · rw [State.putOf_epi]
    exact runOperation_epi_zero _ _ _ _ _ hepi
  · rw [State.putOf_rdata, effectOn_rdata_length]
  · rw [State.putOf_rc]
    rcases effectOn_rc i s with h | h | h | h | h <;> rw [h] <;> decide
  · rw [State.putOf_rc, State.putOf_rdata]
    exact fun hrc => effectOn_rdata_zero i s (.inl hrc)
  · by_cases hc : c = i.coreId
    · subst hc
      rw [State.regsOf_putOf_same]
      exact effectOn_coreInv i s (hcore _)
    · rw [State.regsOf_putOf_other _ _ hc]
      exact hcore c

/-- The invariant looks at message memory only for its canonical form, and not at the command port or the waiting inputs. -/
theorem State.inv_setMem {s : State} {m : Memory} (hs : s.Inv) (hm : m.wf = true) : (s.setMem m).Inv :=
  { hs with mem_wf := hm }

theorem State.inv_setInbox {s : State} (l : List HostInput) (hs : s.Inv) : (s.setInbox l).Inv := { hs with }

theorem State.inv_setPort {s : State} (c : Command) (hs : s.Inv) : (s.setPort c).Inv := { hs with }

theorem State.inv_enterRace {s : State} (ws : List (Word64 × Byte)) (hs : s.Inv) : (s.enterRace ws).Inv :=
  { hs with mem_wf := raceView_wf s.draws ws hs.mem_wf }

theorem State.inv_illegalCommand {s : State} (hs : s.Inv) : s.illegalCommand.Inv :=
  { hs with rdata_length := rfl, rc_range := Nat.one_le_ofNat, fault_without_data := fun _ => rfl }

theorem acceptCommand_inv {s t : State} (hs : s.Inv) (h : acceptCommand s = .next t) : t.Inv := by
  cases hd : decode s.port with
  | error e =>
    rw [acceptCommand_error hd] at h
    obtain rfl := Host.Outcome.next.inj h
    exact State.inv_illegalCommand hs
  | ok i =>
    rw [acceptCommand_ok hd] at h
    exact exec_inv hs h

/-- After a raced command the host's writes have been made and nothing else differs. -/
theorem leaveRace_next {m : Memory} {ws : List (Word64 × Byte)} {o : Host.Outcome State Fault Refusal} {t : State}
    (h : leaveRace m ws o = .next t) : ∃ u, o = .next u ∧ t = u.setMem (m.writeAll ws) := by
  cases o with
  | next u => exact ⟨u, rfl, (Host.Outcome.next.inj h).symm⟩
  | fault r => cases h
  | refused r => cases h

/-- Every input of the host keeps the invariant when it lands. -/
theorem landInput_inv {x : HostInput} {s t : State} (hs : s.Inv) (h : landInput x s = .next t) : t.Inv := by
  cases x with
  | present c => exact acceptCommand_inv (State.inv_setPort c hs) h
  | presentRaced c ws =>
    obtain ⟨u, hu, rfl⟩ := leaveRace_next h
    have hrun := acceptCommand_inv (State.inv_setPort c (State.inv_enterRace ws hs)) hu
    exact State.inv_setMem hrun (Memory.writeAll_wf ws hs.mem_wf)
  | presentChanged c d => cases h
  | write a b =>
    obtain rfl := Host.Outcome.next.inj h
    exact State.inv_setMem hs (Memory.write_wf b hs.mem_wf a.isLt)
  | setReadable ranges =>
    obtain rfl := Host.Outcome.next.inj h
    exact State.inv_setMem hs (Memory.setReadable_wf ranges hs.mem_wf)
  | reset =>
    obtain rfl := Host.Outcome.next.inj h
    exact State.inv_resetBlock hs.mem_wf
  | presentReset c =>
    obtain rfl := Host.Outcome.next.inj h
    exact State.inv_resetBlock hs.mem_wf

/-- Settles O13: an idle step changes nothing, and every input keeps the invariant when it lands. -/
theorem everyStepKeepsInvariant : Obligations.EveryStepKeepsInvariant := by
  intro s t hs h
  cases hin : s.inbox with
  | nil =>
    rw [step_idle hin] at h
    exact Host.Outcome.next.inj h ▸ hs
  | cons x rest =>
    rw [step_input hin] at h
    exact landInput_inv (State.inv_setInbox rest hs) h

/-! ### What a command changes and what it reads -/

theorem sameHostSide_putOf (s : State) (c : CoreId) (e : Effect (HashOf c)) : SameHostSide s (s.putOf c e) := by
  simp [SameHostSide]

/-- Settles O20: the effect of a command is put on its own core. -/
theorem commandTouchesOnlyItsCore : Obligations.CommandTouchesOnlyItsCore := by
  intro i s t h
  obtain rfl := exec_next_iff.mp h
  exact ⟨fun c hc => sameCore_iff.mpr (State.regsOf_putOf_other s _ hc), sameHostSide_putOf s _ _⟩

/-- Settles O22: the two states give the command the same view, hence the same effect. -/
theorem commandReadsOnlyItsCore : Obligations.CommandReadsOnlyItsCore := by
  intro i s s' hcore hepi hmem hdraws
  have hview : s'.viewOf i.coreId = s.viewOf i.coreId := by
    simp only [State.viewOf, sameCore_iff.mp hcore, hepi, hmem, hdraws]
  refine ⟨_, _, exec_eq_next i s, exec_eq_next i s', ?_⟩
  rw [hview]
  exact ⟨sameCore_iff.mpr (by simp), by simp, by simp, by simp, by simp⟩

/-! ### The phase table -/

theorem undecodable_step {s : State} {c : Command} {rest : List HostInput} {e : DecodeError}
    (h : s.inbox = .present c :: rest) (hd : decode c = .error e) :
    step s = .next ((s.setInbox rest).setPort c).illegalCommand :=
  (step_input h).trans (acceptCommand_error (s := (s.setInbox rest).setPort c) hd)

/-- How a command of operation `op` that finds its core in phase `p` may end: with response code `rc` and its core in
phase `q`. -/
def EndsWith (op : Operation) (p : Phase) (rc : BitVec 8) (q : Phase) : Prop :=
  (admits op p = true ∧ rc = 0 ∧ q = phaseAfter op p) ∨
  (admits op p = true ∧ (∃ c ∈ operandFaults op, rc = causeRc c) ∧ q = .faulted) ∨
  (admits op p = false ∧ rc = 2 ∧ q = .faulted)

theorem effectOn_endsWith (i : Instr) (s : State) :
    EndsWith i.operation (s.phaseOf i.coreId) (Instr.effectOn i (s.viewOf i.coreId)).rc
      (Instr.effectOn i (s.viewOf i.coreId)).regs.phase := by
  rw [← State.regsOf_phase]
  rcases runOperation_cases (algOf i.coreId) i.operation (encode i).a0 (encode i).a1 (encode i).a2 (s.viewOf i.coreId)
    with ⟨hadm, he⟩ | ⟨hadm, c, hc, he⟩ | ⟨hadm, he⟩
  · exact .inr (.inr ⟨hadm, he.rc, he.phase⟩)
  · exact .inr (.inl ⟨hadm, ⟨c, hc, he.rc⟩, he.phase⟩)
  · exact .inl ⟨hadm, he.rc, he.phase⟩

/-- Settles O42: the table entry of each operation and phase, from the three ways a command can end. -/
theorem phaseTransitionTable : Obligations.PhaseTransitionTable := by
  refine ⟨fun i s => ⟨_, exec_eq_next i s, fun d hd => State.phaseOf_putOf_other _ _ hd, ?_⟩, ?_⟩
  · have hends := effectOn_endsWith i s
    simp only [State.putOf_rc, State.phaseOf_putOf_same]
    generalize (Instr.effectOn i (s.viewOf i.coreId)).rc = rc at hends ⊢
    generalize (Instr.effectOn i (s.viewOf i.coreId)).regs.phase = q at hends ⊢
    generalize i.operation = op at hends ⊢
    generalize s.phaseOf i.coreId = p at hends ⊢
    cases op <;> cases p <;> simpa [EndsWith, admits, operandFaults, phaseAfter, causeRc, causeCode] using hends
  · rintro s c rest h ⟨e, hd⟩
    exact ⟨_, undecodable_step h hd, rfl, fun d => by cases d <;> rfl⟩

/-! ### The fault code -/

/-- The view with the fault code replaced by `f`. -/
def View.withFcode {α : Type} (v : View α) (f : BitVec 3) : View α := { v with regs := { v.regs with fcode := f } }

/-- The effect with the fault code replaced by `f`. -/
def Effect.withFcode {α : Type} (e : Effect α) (f : BitVec 3) : Effect α := { e with regs := { e.regs with fcode := f } }

section Fcode

variable {α : Type} (A : Alg α) (v : View α) (f g : BitVec 3)

theorem faultedAtBlock_withFcode (k : Nat) :
    faultedAtBlock A k (v.withFcode f) = (faultedAtBlock A k v).withFcode f := by
  by_cases hk : k = 0 <;> simp [faultedAtBlock, hk, View.withFcode]

/-- No operation reads the fault code: replacing it changes nothing of the effect but the fault code. -/
theorem runOperation_withFcode (op : Operation) (a0 a1 a2 : Word64) :
    (runOperation A op a0 a1 a2 (v.withFcode f)).withFcode g = (runOperation A op a0 a1 a2 v).withFcode g := by
  have hphase : (v.withFcode f).regs.phase = v.regs.phase := rfl
  have hh : (v.withFcode f).regs.h = v.regs.h := rfl
  have hmem : (v.withFcode f).mem = v.mem := rfl
  cases op with
  | init =>
    simp only [runOperation, initCommand, hphase]
    split <;> rfl
  | cycle =>
    simp only [runOperation, cycleCommand, hphase, hh, hmem, faultedAtBlock_withFcode]
    split
    · split
      · split <;> rfl
      · rfl
    · rfl
  | finish =>
    simp only [runOperation, finishCommand, hphase, hmem]
    split
    · split
      · rfl
      · split
        · rfl
        · split <;> rfl
    · rfl
  | digest =>
    simp only [runOperation, digestCommand, hphase]
    split <;> rfl
  | erase => rfl

end Fcode

theorem State.viewOf_withFcode (s : State) (c : CoreId) (f : BitVec 3) :
    (s.withFcode c f).viewOf c = (s.viewOf c).withFcode f := by
  cases c <;> rfl

theorem State.viewOf_withFcode_other {c d : CoreId} (h : d ≠ c) (s : State) (f : BitVec 3) :
    (s.withFcode c f).viewOf d = s.viewOf d := by
  revert h
  cases c <;> cases d <;> simp [State.withFcode, State.viewOf, State.regsOf]

theorem State.putOf_withFcode (s : State) (c : CoreId) (f : BitVec 3) (e : Effect (HashOf c)) :
    (s.withFcode c f).putOf c e = s.putOf c e := by
  cases c <;> rfl

theorem State.withFcode_putOf (s : State) (c : CoreId) (f : BitVec 3) (e : Effect (HashOf c)) :
    (s.putOf c e).withFcode c f = s.putOf c (e.withFcode f) := by
  cases c <;> rfl

theorem State.withFcode_putOf_other {c d : CoreId} (h : d ≠ c) (s : State) (f g : BitVec 3) (e : Effect (HashOf d)) :
    ((s.withFcode c f).putOf d e).withFcode c g = (s.putOf d e).withFcode c g := by
  revert h
  cases c <;> cases d <;>
    simp [State.withFcode, State.putOf, State.putRipemd256, State.putSha1, State.putSha256, State.putSha384]

/-- No command reads the fault code of any core (`10_state.md` R26). -/
theorem effectOn_withFcode (i : Instr) (s : State) (c : CoreId) (f g : BitVec 3) :
    ((s.withFcode c f).putOf i.coreId (Instr.effectOn i ((s.withFcode c f).viewOf i.coreId))).withFcode c g =
      (s.putOf i.coreId (Instr.effectOn i (s.viewOf i.coreId))).withFcode c g := by
  by_cases hc : i.coreId = c
  · subst hc
    rw [State.viewOf_withFcode, State.putOf_withFcode, State.withFcode_putOf, State.withFcode_putOf, Instr.effectOn,
      runOperation_withFcode, ← Instr.effectOn]
  · rw [State.viewOf_withFcode_other hc, State.withFcode_putOf_other hc]

/-- An operation that answers OK leaves its core FAULTED in no case. -/
theorem OkEffect.phase_ne_faulted {α : Type} {A : Alg α} {op : Operation} {v : View α} {e : Effect α}
    (he : OkEffect A op v e) (hadm : admits op v.regs.phase = true) : e.regs.phase ≠ .faulted := by
  rw [he.phase]
  by_cases hop : op = .erase
  · simp [hop, phaseAfter]
  · exact (phases_of_admits hop hadm).2.1

theorem effectOn_fcode_of_erase {i : Instr} (h : i.operation = .erase) (s : State) :
    (Instr.effectOn i (s.viewOf i.coreId)).regs.fcode = 0 := by
  rw [Instr.effectOn, h]
  rfl

/-- The fault code of the addressed core: written by a fault unless it is FAULTED already, cleared by ERASE, left by every
other OK command (`10_state.md` R26). -/
theorem exec_fcode {i : Instr} {s t : State} (h : exec i s = .next t) :
    (s.phaseOf i.coreId ≠ .faulted → t.phaseOf i.coreId = .faulted → (t.fcodeOf i.coreId).toNat = t.rc.toNat) ∧
    (s.phaseOf i.coreId = .faulted → t.phaseOf i.coreId = .faulted → t.fcodeOf i.coreId = s.fcodeOf i.coreId) ∧
    (i.operation = .erase → t.fcodeOf i.coreId = 0) ∧
    (t.rc = 0 → i.operation ≠ .erase → t.fcodeOf i.coreId = s.fcodeOf i.coreId) := by
  obtain rfl := exec_next_iff.mp h
  simp only [State.phaseOf_putOf_same, State.fcodeOf_putOf_same, State.putOf_rc, ← State.regsOf_phase s,
    ← State.regsOf_fcode s]
  rcases effectOn_fault_or_ok i s with ⟨c, -, he⟩ | ⟨hadm, he⟩
  · refine ⟨fun hp _ => ?_, fun hp _ => ?_, fun hop => effectOn_fcode_of_erase hop s, fun hrc => ?_⟩
    · rw [he.fcode, he.rc, State.viewOf_regs, fcodeAfter_of_ne_faulted hp, causeRc_toNat]
    · rw [he.fcode, State.viewOf_regs, hp, fcodeAfter_faulted]
    · exact absurd (he.rc.symm.trans hrc) (causeRc_ne_zero c)
  · have hlive := he.phase_ne_faulted (by simpa using hadm)
    exact ⟨fun _ hf => absurd hf hlive, fun _ hf => absurd hf hlive, fun hop => effectOn_fcode_of_erase hop s,
      fun _ hop => by rw [he.fcode, if_neg hop, State.viewOf_regs]⟩

/-- Under the invariant a core that is not FAULTED holds the fault code 0. -/
theorem State.Inv.fcodeOf_eq_zero {s : State} (hs : s.Inv) {c : CoreId} (h : s.phaseOf c ≠ .faulted) :
    s.fcodeOf c = 0 := by
  obtain ⟨-, -, -, -, -, hcore⟩ := State.inv_iff.mp hs
  rw [← State.regsOf_phase] at h
  rw [← State.regsOf_fcode]
  exact not_not.mp (mt (hcore c).faulted_iff_code.mpr h)

theorem fcodeOf_resetBlock (s : State) (c : CoreId) : s.resetBlock.fcodeOf c = 0 := by
  cases c <;> rfl

/-- Settles O46: writes of the fault code by a command and by reset, and that replacing it changes nothing else. -/
theorem faultCodeRegister : Obligations.FaultCodeRegister := by
  refine ⟨fun i s t h => ?_, fun s rest h => ?_, fun i s c f => ?_⟩
  · obtain ⟨hentry, hkept, herase, hok⟩ := exec_fcode h
    exact ⟨hentry, hkept, herase, hok, fun hs c hc => (exec_inv hs h).fcodeOf_eq_zero hc⟩
  · rcases h with h | ⟨w, h⟩
    · exact ⟨_, step_input h, fcodeOf_resetBlock _⟩
    · exact ⟨_, step_input h, fcodeOf_resetBlock _⟩
  · exact ⟨_, _, exec_eq_next i s, exec_eq_next i _, effectOn_withFcode i s c f 0⟩

/-! ### Commands of different cores -/

/-- A fault at a block after the first draws `NW` free values (assumption 3). -/
theorem faultedAtBlock_draws {α : Type} (A : Alg α) {k : Nat} (hk : k ≠ 0) (v : View α) :
    (faultedAtBlock A k v).draws = v.draws + A.nw := by
  simp [faultedAtBlock, hk]

/-- An operation that draws no free value does the same whatever number the next one has. -/
theorem runOperation_of_no_draw {α : Type} {A : Alg α} (hnw : A.nw ≠ 0) {op : Operation} {a0 a1 a2 : Word64}
    {v : View α} (h : (runOperation A op a0 a1 a2 v).draws = v.draws) (n : Nat) :
    runOperation A op a0 a1 a2 { v with draws := n } = { runOperation A op a0 a1 a2 v with draws := n } := by
  cases op with
  | init =>
    simp only [runOperation, initCommand]
    split <;> rfl
  | cycle =>
    rcases cycleCommand_cases A a0 a1 v with ⟨hp, -⟩ | ⟨hp, hr, -⟩ | ⟨k, hp, hr, hk, hrun⟩ | ⟨x, hp, hr, hk, -⟩
    · simp only [runOperation, cycleCommand, hp]
      rfl
    · simp only [runOperation, cycleCommand, hp, hr]
      rfl
    · have hk0 : k = 0 := by
        by_contra hne
        rw [runOperation, hrun, raise_draws, faultedAtBlock_draws A hne] at h
        omega
      simp only [runOperation, cycleCommand, hp, hr, hk, hk0]
      rfl
    · simp only [runOperation, cycleCommand, hp, hr, hk]
      rfl
  | finish =>
    simp only [runOperation, finishCommand]
    split
    · split
      · rfl
      · split
        · rfl
        · split <;> rfl
    · rfl
  | digest =>
    simp only [runOperation, digestCommand]
    split <;> rfl
  | erase => rfl

theorem algOf_nw_ne_zero (c : CoreId) : (algOf c).nw ≠ 0 := by
  cases c <;> decide

/-- A command that draws nothing, before or after a command of another core. -/
theorem exec_commute_of_no_draw {i j : Instr} {s a b : State} (hne : i.coreId ≠ j.coreId)
    (hepi : s.epi = List.replicate 256 0) (ha : exec i s = .next a) (hb : exec j s = .next b)
    (hdraws : a.draws = s.draws) :
    ∃ ij ji, exec j a = .next ij ∧ exec i b = .next ji ∧
      ij.rc = b.rc ∧ ij.rdata = b.rdata ∧ ji.rc = a.rc ∧ ji.rdata = a.rdata ∧
      { ij with rc := 0, rdata := [] } = { ji with rc := 0, rdata := [] } := by
  obtain rfl := exec_next_iff.mp ha
  obtain rfl := exec_next_iff.mp hb
  rw [State.putOf_draws] at hdraws
  have hepii : (Instr.effectOn i (s.viewOf i.coreId)).epi = s.epi :=
    (runOperation_epi_zero _ _ _ _ _ hepi).trans hepi.symm
  have hepij : (Instr.effectOn j (s.viewOf j.coreId)).epi = s.epi :=
    (runOperation_epi_zero _ _ _ _ _ hepi).trans hepi.symm
  have hj : (s.putOf i.coreId (Instr.effectOn i (s.viewOf i.coreId))).viewOf j.coreId = s.viewOf j.coreId := by
    rw [State.viewOf_putOf_other _ _ hne.symm, hepii, hdraws]
    rfl
  have hi : (s.putOf j.coreId (Instr.effectOn j (s.viewOf j.coreId))).viewOf i.coreId =
      { s.viewOf i.coreId with draws := (Instr.effectOn j (s.viewOf j.coreId)).draws } := by
    rw [State.viewOf_putOf_other _ _ hne, hepij]
    rfl
  have hii : Instr.effectOn i { s.viewOf i.coreId with draws := (Instr.effectOn j (s.viewOf j.coreId)).draws } =
      { Instr.effectOn i (s.viewOf i.coreId) with draws := (Instr.effectOn j (s.viewOf j.coreId)).draws } :=
    runOperation_of_no_draw (algOf_nw_ne_zero _) hdraws _
  refine ⟨_, _, exec_eq_next j _, exec_eq_next i _, ?_⟩
  rw [hj, hi, hii]
  refine ⟨by simp, by simp, by simp, by simp, ?_⟩
  exact State.putOf_comm s _ hne.symm rfl rfl (hepii.trans hepij.symm) rfl

/-- Settles O47: one of the two commands draws nothing; the statement is symmetric in the two. -/
theorem commandsOfDifferentCoresCommute : Obligations.CommandsOfDifferentCoresCommute := by
  rintro i j s a b hne hepi ha hb (hdraws | hdraws)
  · exact exec_commute_of_no_draw hne hepi ha hb hdraws
  · obtain ⟨ji, ij, hji, hij, hrc, hrdata, hrc', hrdata', heq⟩ :=
      exec_commute_of_no_draw hne.symm hepi hb ha hdraws
    exact ⟨ij, ji, hij, hji, hrc', hrdata', hrc, hrdata, heq.symm⟩

end Sys2Proof.Machine
end

section
/-! SUPPORT. `MemRead` against what memory holds and what is readable, commands by core and operation, and message
memory replaced. -/

namespace Sys2Proof.Machine

/-! ### `MemRead` -/

theorem memRead_succ (m : Memory) (addr n : Nat) :
    memRead m addr (n + 1) = (m.read addr).bind fun b => (memRead m (addr + 1) n).map (b :: ·) := by
  cases hb : m.read addr with
  | none => simp [memRead, hb]
  | some b => cases hbs : memRead m (addr + 1) n <;> simp [memRead, hb, hbs]

/-- `MemRead` looks at no byte outside its range (`20_memory.md` R72). -/
theorem memRead_congr {m m' : Memory} {addr n : Nat} (h : ∀ j, j < n → m'.read (addr + j) = m.read (addr + j)) :
    memRead m' addr n = memRead m addr n := by
  induction n generalizing addr with
  | zero => rfl
  | succ n ih =>
    have hfirst : m'.read addr = m.read addr := h 0 (Nat.succ_pos n)
    have hrest : memRead m' (addr + 1) n = memRead m (addr + 1) n :=
      ih fun j hj => by simpa [Nat.add_assoc, Nat.add_comm 1 j] using h (j + 1) (Nat.succ_lt_succ hj)
    rw [memRead_succ, memRead_succ, hfirst, hrest]

theorem someUnreadable_succ {m : Memory} {addr n : Nat} :
    SomeUnreadable m addr (n + 1) ↔ m.readable addr = false ∨ SomeUnreadable m (addr + 1) n := by
  constructor
  · rintro ⟨_ | j, hj, hu⟩
    · exact .inl hu
    · exact .inr ⟨j, Nat.lt_of_succ_lt_succ hj, by simpa [Nat.add_assoc, Nat.add_comm 1 j] using hu⟩
  · rintro (hu | ⟨j, hj, hu⟩)
    · exact ⟨0, Nat.succ_pos n, hu⟩
    · exact ⟨j + 1, Nat.succ_lt_succ hj, by simpa [Nat.add_assoc, Nat.add_comm 1 j] using hu⟩

/-- A range with an unreadable byte has it before or after the point where it is cut. -/
theorem someUnreadable_add {m : Memory} {addr n k : Nat} :
    SomeUnreadable m addr (n + k) ↔ SomeUnreadable m addr n ∨ SomeUnreadable m (addr + n) k := by
  induction n generalizing addr with
  | zero => simp [SomeUnreadable]
  | succ n ih =>
    rw [Nat.add_right_comm, someUnreadable_succ, ih, someUnreadable_succ, or_assoc, Nat.add_assoc, Nat.add_comm 1 n]

/-- `MemRead` answers nothing exactly where a byte of the range is not readable (R64). -/
theorem memRead_eq_none_iff {m : Memory} {addr n : Nat} : memRead m addr n = none ↔ SomeUnreadable m addr n := by
  induction n generalizing addr with
  | zero => simp [SomeUnreadable]
  | succ n ih =>
    rw [memRead_succ, someUnreadable_succ, ← ih, ← Memory.read_eq_none]
    cases m.read addr <;> simp

theorem memHolds_cons {m : Memory} {addr : Nat} {b : Byte} {bs : List Byte} :
    MemHolds m addr (b :: bs) ↔ m.read addr = some b ∧ MemHolds m (addr + 1) bs := by
  constructor
  · intro h
    exact ⟨h 0 (Nat.succ_pos _), fun j hj => by
      simpa [Nat.add_assoc, Nat.add_comm 1 j] using h (j + 1) (Nat.succ_lt_succ hj)⟩
  · rintro ⟨hb, hbs⟩ (_ | j) hj
    · exact hb
    · simpa [Nat.add_assoc, Nat.add_comm 1 j] using hbs j (Nat.lt_of_succ_lt_succ hj)

/-- What `MemRead` answers is what memory holds at the range (R64). -/
theorem memHolds_of_memRead {m : Memory} {addr n : Nat} {bs : List Byte} (h : memRead m addr n = some bs) :
    MemHolds m addr bs := by
  induction n generalizing addr bs with
  | zero =>
    obtain rfl : [] = bs := by simpa using h
    exact fun j hj => absurd hj (Nat.not_lt_zero j)
  | succ n ih =>
    simp only [memRead_succ, Option.bind_eq_some_iff, Option.map_eq_some_iff] at h
    obtain ⟨b, hb, rest, hrest, rfl⟩ := h
    exact memHolds_cons.mpr ⟨hb, ih hrest⟩

/-! ### Commands by core and operation -/

theorem exec_instrOf (c : CoreId) (op : Operation) (a0 a1 a2 : Word64) (s : State) :
    exec (instrOf c op a0 a1 a2) s = .next (s.putOf c (runOperation (algOf c) op a0 a1 a2 (s.viewOf c))) := by
  cases c <;> cases op <;> rfl

@[simp] theorem algOf_bs (c : CoreId) : (algOf c).bs = blockSizeOf c := by
  cases c <;> rfl

/-- A live core admits every operation but INIT (`60_exceptions.md` R271). -/
theorem admits_of_live {s : State} {c : CoreId} (h : s.live c) {op : Operation} (hop : op ≠ .init) :
    admits op (s.phaseOf c) = true := by
  revert hop
  rcases h with h | h <;> rw [h] <;> cases op <;> decide

/-- A range of no bytes lies inside the address space wherever it begins. -/
theorem rangeFits_zero (a : Word64) : rangeFits a.toNat 0 = true :=
  decide_eq_true (Nat.le_of_lt a.isLt)

/-! ### Message memory replaced -/

theorem State.viewOf_setMem (s : State) (c : CoreId) (m : Memory) :
    (s.setMem m).viewOf c = { s.viewOf c with mem := m } := by
  cases c <;> rfl

theorem State.putOf_setMem (s : State) (c : CoreId) (m : Memory) (e : Effect (HashOf c)) :
    (s.setMem m).putOf c e = (s.putOf c e).setMem m := by
  cases c <;> rfl

theorem State.setMem_inj {s t : State} (m : Memory) (h : t.mem = s.mem) : s.setMem m = t.setMem m ↔ s = t := by
  constructor
  · intro heq
    calc s = (s.setMem m).setMem s.mem := rfl
      _ = (t.setMem m).setMem t.mem := by rw [heq, h]
      _ = t := rfl
  · rintro rfl
    rfl

end Sys2Proof.Machine
end

section
/-! PROOFS. The statements of `20_memory.md`: the canonical form holds one memory for each contents (R61, R63), host
writes and changes of `Readable` (R63, R76), `MemRead` (R64), the byte swap (R69), which bytes a command reads (R79,
R80) and where CYCLE traps (R64, R65). -/

namespace Sys2Proof.Machine

/-! ### Host inputs that change message memory -/

/-- Settles O16: the laws of `Memory.write` and `Memory.setReadable`, since each input changes message memory alone. -/
theorem hostWritesLandBetweenCommands : Obligations.HostWritesLandBetweenCommands := by
  constructor
  · intro s a b rest hin hwf
    exact ⟨s.mem.write a.toNat b, step_input hin, Memory.byte_write_same _ b hwf,
      fun x hx => Memory.byte_write_other s.mem b hx, fun x => Memory.readable_write s.mem _ x b⟩
  · intro s ranges rest hin
    exact ⟨s.mem.setReadable ranges, step_input hin, Memory.byte_setReadable s.mem ranges,
      Memory.readable_setReadable s.mem ranges⟩

/-! ### One canonical form for each memory -/

theorem cellByte_cons_same (c : Host.Cell) (l : List Host.Cell) : cellByte (c :: l) c.1 = c.2 := by
  simp [cellByte]

theorem cellByte_cons_other {c : Host.Cell} (l : List Host.Cell) {a : Nat} (h : a ≠ c.1) :
    cellByte (c :: l) a = cellByte l a := by
  simp [cellByte, Ne.symm h]

/-- No byte is listed past the top of the address space. -/
theorem cellByte_of_ge {l : List Host.Cell} (h : cellsWf l = true) {a : Nat} (ha : Config.addrSpace ≤ a) :
    cellByte l a = unlistedByte := by
  induction l with
  | nil => rfl
  | cons c l ih =>
    obtain ⟨hlt, -, hl, -⟩ := (cellsWf_cons_iff c l).mp h
    rw [cellByte_cons_other l (by omega), ih hl]

/-- The first address listed is one where the byte is not the unlisted one, so no list with the same bytes begins
later. -/
theorem head_le_of_cellByte_eq {c d : Host.Cell} {l k : List Host.Cell} (hl : cellsWf (c :: l) = true)
    (hk : cellsWf (d :: k) = true) (h : ∀ a, cellByte (c :: l) a = cellByte (d :: k) a) : d.1 ≤ c.1 := by
  obtain ⟨-, hne, -, -⟩ := (cellsWf_cons_iff c l).mp hl
  obtain ⟨-, -, -, hbelow⟩ := (cellsWf_cons_iff d k).mp hk
  by_contra hlt
  have hunlisted : cellByte (d :: k) c.1 = unlistedByte := by
    refine cellByte_of_lt fun e he => ?_
    rcases List.mem_cons.mp he with rfl | he
    · omega
    · have := hbelow e he
      omega
  exact hne (by rw [← cellByte_cons_same c l, h, hunlisted])

/-- A canonical list of bytes is determined by the byte at each address. -/
theorem eq_of_cellByte_eq {l k : List Host.Cell} (hl : cellsWf l = true) (hk : cellsWf k = true)
    (h : ∀ a, cellByte l a = cellByte k a) : l = k := by
  induction l generalizing k with
  | nil =>
    cases k with
    | nil => rfl
    | cons d k =>
      obtain ⟨-, hne, -, -⟩ := (cellsWf_cons_iff d k).mp hk
      exact absurd ((cellByte_cons_same d k).symm.trans (h d.1).symm) hne
  | cons c l ih =>
    cases k with
    | nil =>
      obtain ⟨-, hne, -, -⟩ := (cellsWf_cons_iff c l).mp hl
      exact absurd ((cellByte_cons_same c l).symm.trans (h c.1)) hne
    | cons d k =>
      obtain ⟨-, -, hl', hbelowl⟩ := (cellsWf_cons_iff c l).mp hl
      obtain ⟨-, -, hk', hbelowk⟩ := (cellsWf_cons_iff d k).mp hk
      have haddr : c.1 = d.1 :=
        Nat.le_antisymm (head_le_of_cellByte_eq hk hl fun a => (h a).symm) (head_le_of_cellByte_eq hl hk h)
      have hbyte : c.2 = d.2 := by
        rw [← cellByte_cons_same c l, h, haddr, cellByte_cons_same]
      have htail : l = k := by
        refine ih hl' hk' fun a => ?_
        by_cases ha : a = c.1
        · rw [ha, cellByte_of_lt hbelowl, cellByte_of_lt (haddr ▸ hbelowk)]
        · rw [← cellByte_cons_other l ha, h, cellByte_cons_other k (haddr ▸ ha)]
      rw [htail, Prod.ext haddr hbyte]

theorem regionsHold_cons (r : Region) (l : List Region) (a : Nat) :
    regionsHold (r :: l) a = true ↔ (r.first ≤ a ∧ a < r.past) ∨ regionsHold l a = true := by
  simp [regionsHold_iff]

theorem lt_of_regionsHold {l : List Region} (h : regionsWf l = true) {a : Nat} (ha : regionsHold l a = true) :
    a < Config.addrSpace := by
  induction l with
  | nil => simp at ha
  | cons r l ih =>
    obtain ⟨-, hpast, hl, -⟩ := (regionsWf_cons_iff r l).mp h
    rcases (regionsHold_cons r l a).mp ha with hr | hr
    · omega
    · exact ih hl hr

/-- No address up to the end of the first range lies in a later one. -/
theorem past_lt_of_regionsHold {r : Region} {l : List Region} (h : regionsWf (r :: l) = true) {a : Nat}
    (ha : regionsHold l a = true) : r.past < a := by
  obtain ⟨-, -, -, hgap⟩ := (regionsWf_cons_iff r l).mp h
  obtain ⟨q, hq, hfirst, -⟩ := (regionsHold_iff l a).mp ha
  exact Nat.lt_of_lt_of_le (hgap q hq) hfirst

/-- The first range of a canonical list begins at the lowest address held, and ends at the first one above that
is not. -/
theorem head_le_of_regionsHold_imp {r q : Region} {l k : List Region} (hl : regionsWf (r :: l) = true)
    (hk : regionsWf (q :: k) = true) (h : ∀ a, regionsHold (r :: l) a = true → regionsHold (q :: k) a = true) :
    q.first ≤ r.first ∧ (r.first ≤ q.past → r.past ≤ q.past) := by
  obtain ⟨hr, -, -, -⟩ := (regionsWf_cons_iff r l).mp hl
  obtain ⟨hq, -, -, -⟩ := (regionsWf_cons_iff q k).mp hk
  have hheld (a : Nat) (hfirst : r.first ≤ a) (hpast : a < r.past) : (q.first ≤ a ∧ a < q.past) ∨ q.past < a :=
    ((regionsHold_cons q k a).mp (h a ((regionsHold_cons r l a).mpr (.inl ⟨hfirst, hpast⟩)))).imp_right
      (past_lt_of_regionsHold hk)
  constructor
  · have := hheld r.first (Nat.le_refl _) hr
    omega
  · intro hle
    by_contra hlt
    have := hheld q.past hle (by omega)
    omega

/-- A canonical list of ranges is determined by the addresses it holds. -/
theorem eq_of_regionsHold_iff {l k : List Region} (hl : regionsWf l = true) (hk : regionsWf k = true)
    (h : ∀ a, regionsHold l a = true ↔ regionsHold k a = true) : l = k := by
  induction l generalizing k with
  | nil =>
    cases k with
    | nil => rfl
    | cons q k =>
      obtain ⟨hq, -, -, -⟩ := (regionsWf_cons_iff q k).mp hk
      have := (h q.first).mpr ((regionsHold_cons q k _).mpr (.inl ⟨Nat.le_refl _, hq⟩))
      simp at this
  | cons r l ih =>
    obtain ⟨hr, -, hl', -⟩ := (regionsWf_cons_iff r l).mp hl
    cases k with
    | nil =>
      have := (h r.first).mp ((regionsHold_cons r l _).mpr (.inl ⟨Nat.le_refl _, hr⟩))
      simp at this
    | cons q k =>
      obtain ⟨hq, -, hk', -⟩ := (regionsWf_cons_iff q k).mp hk
      obtain ⟨hfirst, hpast⟩ := head_le_of_regionsHold_imp hl hk fun a => (h a).mp
      obtain ⟨hfirst', hpast'⟩ := head_le_of_regionsHold_imp hk hl fun a => (h a).mpr
      have hhead : r = q := by
        have hfirstEq : r.first = q.first := Nat.le_antisymm hfirst' hfirst
        have hpastEq : r.past = q.past := by omega
        cases r
        cases q
        exact congrArg₂ Region.mk hfirstEq hpastEq
      subst hhead
      have htail : l = k := by
        refine ih hl' hk' fun a => ?_
        have hcons := h a
        rw [regionsHold_cons, regionsHold_cons] at hcons
        have hbeyond := past_lt_of_regionsHold hl (a := a)
        have hbeyond' := past_lt_of_regionsHold hk (a := a)
        by_cases ha : r.past < a
        · simpa [Nat.not_lt_of_gt ha] using hcons
        · exact ⟨fun g => absurd (hbeyond g) ha, fun g => absurd (hbeyond' g) ha⟩
      rw [htail]

/-- Settles O58: past the top both memories are empty, so they agree everywhere, and each list is determined. -/
theorem canonicalMemoriesThatAgreeAreEqual : Obligations.CanonicalMemoriesThatAgreeAreEqual := by
  rintro ⟨cells, regions⟩ ⟨cells', regions'⟩ hm hn h
  obtain ⟨hcells, hregions⟩ := (Memory.wf_iff _).mp hm
  obtain ⟨hcells', hregions'⟩ := (Memory.wf_iff _).mp hn
  have hc : cells = cells' := by
    refine eq_of_cellByte_eq hcells hcells' fun a => ?_
    rcases Nat.lt_or_ge a Config.addrSpace with ha | ha
    · exact (h a ha).1
    · rw [cellByte_of_ge hcells ha, cellByte_of_ge hcells' ha]
  have hr : regions = regions' := by
    refine eq_of_regionsHold_iff hregions hregions' fun a => ⟨fun g => ?_, fun g => ?_⟩
    · exact (h a (lt_of_regionsHold hregions g)).2.symm.trans g
    · exact (h a (lt_of_regionsHold hregions' g)).2.trans g
  rw [hc, hr]

/-! ### `MemRead` -/

/-- Settles O19: `MemRead` fails exactly on an unreadable byte, and else answers what memory holds. -/
theorem memReadReturnsTheBytesOrFaults : Obligations.MemReadReturnsTheBytesOrFaults := by
  intro m addr n
  refine ⟨fun hall => ?_, memRead_eq_none_iff.mpr, rfl⟩
  cases h : memRead m addr n with
  | none =>
    obtain ⟨j, hj, hu⟩ := memRead_eq_none_iff.mp h
    simp [hall j hj] at hu
  | some bytes => exact ⟨bytes, rfl, memRead_length h, memHolds_of_memRead h⟩

/-! ### The byte swap -/

/-- The swapped word has the bytes of the word in the other order (`20_memory.md` R69). -/
theorem toLeBytes_bswap {w : Nat} (hw : 8 ∣ w) (x : BitVec w) : toLeBytes (bswap x) = toBeBytes x :=
  toLeBytes_leWord (by rw [toBeBytes_eq_reverse, List.length_reverse, toLeBytes_length, Nat.mul_div_cancel' hw])

theorem bswap_bswap {w : Nat} (hw : 8 ∣ w) (x : BitVec w) : bswap (bswap x) = x := by
  rw [bswap, toBeBytes_eq_reverse, toLeBytes_bswap hw, toBeBytes_eq_reverse, List.reverse_reverse, leWord_toLeBytes hw]

/-- R69's three claims for one width. -/
theorem bswap_makes_image_bigEndian {w : Nat} (hw : 8 ∣ w) (x : BitVec w) :
    toLeBytes (bswap x) = toBeBytes x ∧ toBeBytes x = (toLeBytes x).reverse ∧ bswap (bswap x) = x :=
  ⟨toLeBytes_bswap hw x, toBeBytes_eq_reverse x, bswap_bswap hw x⟩

/-- Settles O36: both widths are whole bytes. -/
theorem byteSwapMakesTheImageBigEndian : Obligations.ByteSwapMakesTheImageBigEndian :=
  ⟨bswap_makes_image_bigEndian (by decide), bswap_makes_image_bigEndian (by decide)⟩

/-! ### A command reads the bytes it names -/

section Reads

variable {α : Type} (A : Alg α)

theorem absorbBlocks_congr {m m' : Memory} {ptr k n : Nat} {h : α}
    (hm : ∀ j, j < n * A.bs → m'.read (ptr + k * A.bs + j) = m.read (ptr + k * A.bs + j)) :
    absorbBlocks A m' ptr k n h = absorbBlocks A m ptr k n h := by
  induction n generalizing k h with
  | zero => rfl
  | succ n ih =>
    rw [Nat.succ_mul] at hm
    have hblock : memRead m' (ptr + k * A.bs) A.bs = memRead m (ptr + k * A.bs) A.bs :=
      memRead_congr fun j hj => hm j (by omega)
    have hrest (j : Nat) (hj : j < n * A.bs) :
        m'.read (ptr + (k + 1) * A.bs + j) = m.read (ptr + (k + 1) * A.bs + j) := by
      have haddr : ptr + (k + 1) * A.bs + j = ptr + k * A.bs + (A.bs + j) := by rw [Nat.succ_mul]; omega
      rw [haddr]
      exact hm _ (by omega)
    simp only [absorbBlocks, hblock, ih hrest]

theorem faultedAtBlock_mem (k : Nat) (v : View α) (m : Memory) :
    faultedAtBlock A k { v with mem := m } = { faultedAtBlock A k v with mem := m } := by
  simp only [faultedAtBlock]
  split <;> rfl

theorem cycleCommand_mem_congr (ptr count : Word64) (v : View α) (m : Memory)
    (h : ∀ j, j < count.toNat * A.bs → m.read (ptr.toNat + j) = v.mem.read (ptr.toNat + j)) :
    cycleCommand A ptr count { v with mem := m } = cycleCommand A ptr count v := by
  have hblocks : absorbBlocks A m ptr.toNat 0 count.toNat v.regs.h =
      absorbBlocks A v.mem ptr.toNat 0 count.toNat v.regs.h :=
    absorbBlocks_congr A (by simpa using h)
  simp only [cycleCommand, hblocks, faultedAtBlock_mem]
  rfl

theorem finishCommand_mem_congr (tail size total : Word64) (v : View α) (m : Memory)
    (h : ∀ j, j < size.toNat → m.read (tail.toNat + j) = v.mem.read (tail.toNat + j)) :
    finishCommand A tail size total { v with mem := m } = finishCommand A tail size total v := by
  have htail : memRead m tail.toNat size.toNat = memRead v.mem tail.toNat size.toNat := memRead_congr h
  simp only [finishCommand, htail]
  rfl

end Reads

/-- A command has the same effect with every message memory that reads the same on the bytes the command names
(`20_memory.md` R79). -/
theorem runOperation_mem_congr {c : CoreId} {op : Operation} {a0 a1 : Word64} (a2 : Word64) {v : View (HashOf c)}
    {m : Memory}
    (h : ∀ j, j < (namedRange c op a0 a1).2 →
      m.read ((namedRange c op a0 a1).1 + j) = v.mem.read ((namedRange c op a0 a1).1 + j)) :
    runOperation (algOf c) op a0 a1 a2 { v with mem := m } = runOperation (algOf c) op a0 a1 a2 v := by
  cases op with
  | init => rfl
  | cycle => exact cycleCommand_mem_congr _ a0 a1 v m (by simpa [namedRange] using h)
  | finish => exact finishCommand_mem_congr _ a0 a1 a2 v m h
  | digest => rfl
  | erase => rfl

/-- Settles O23: the command has the same effect in both memories, and no effect on memory. -/
theorem onlyNamedBytesAreRead : Obligations.OnlyNamedBytesAreRead := by
  intro c op a0 a1 a2 s m h
  refine ⟨_, exec_instrOf c op a0 a1 a2 s, State.putOf_mem s c _, ?_⟩
  show exec _ (s.setMem m) = .next (State.setMem _ m)
  rw [exec_instrOf, State.viewOf_setMem, runOperation_mem_congr a2 h, State.putOf_setMem]

/-! ### Operands of length zero -/

/-- CYCLE of no blocks leaves the core as it was (R80). -/
theorem cycleCommand_zero {α : Type} (A : Alg α) (ptr : Word64) {v : View α}
    (h : admits .cycle v.regs.phase = true) : cycleCommand A ptr 0 v = respondOk v v.regs := by
  simp [cycleCommand, h, rangeFits_zero, phaseAfter]

/-- An OK response with the core's registers as they were. -/
theorem State.putOf_respondOk (s : State) (c : CoreId) :
    s.putOf c (respondOk (s.viewOf c) (s.regsOf c)) = { s with rc := 0, rdata := noData } := by
  cases c <;> rfl

theorem exec_cycle_zero {s : State} {c : CoreId} (p : Word64) (h : s.live c) :
    exec (instrOf c .cycle p 0 0) s = .next { s with rc := 0, rdata := noData } := by
  rw [exec_instrOf, runOperation, cycleCommand_zero _ p (by simpa using admits_of_live h (by decide)),
    State.viewOf_regs, State.putOf_respondOk]

/-- FINISH of no tail bytes does not look at the tail pointer (R80). -/
theorem finishCommand_zero {α : Type} (A : Alg α) (tail total : Word64) (v : View α) :
    finishCommand A tail 0 total v =
      if admits .finish v.regs.phase then finishWithTail A [] total v else raise .badPhase v := by
  simp [finishCommand, rangeFits_zero]

theorem exec_finish_zero_iff (c : CoreId) {s u : State} (p q total : Word64) (m : Memory) (h : u.mem = s.mem) :
    exec (instrOf c .finish p 0 total) (s.setMem m) = .next (u.setMem m) ↔
      exec (instrOf c .finish q 0 total) s = .next u := by
  have heffect : runOperation (algOf c) .finish p 0 total ((s.setMem m).viewOf c) =
      runOperation (algOf c) .finish q 0 total (s.viewOf c) := by
    rw [State.viewOf_setMem, runOperation, runOperation, finishCommand_zero, finishCommand_zero]
    rfl
  rw [exec_instrOf, exec_instrOf, heffect, State.putOf_setMem, Host.Outcome.next.injEq, Host.Outcome.next.injEq]
  exact State.setMem_inj m (h.trans (State.putOf_mem s c _).symm)

/-- Settles O26: the two facts at each core. -/
theorem zeroLengthOperandsReadNothing : Obligations.ZeroLengthOperandsReadNothing := by
  constructor
  · intro s p
    exact ⟨exec_cycle_zero p, exec_cycle_zero p, exec_cycle_zero p, exec_cycle_zero p⟩
  · intro s u p q total m h
    exact ⟨exec_finish_zero_iff .ripemd256 p q total m h, exec_finish_zero_iff .sha1 p q total m h,
      exec_finish_zero_iff .sha256 p q total m h, exec_finish_zero_iff .sha384 p q total m h⟩

/-! ### Where CYCLE traps -/

/-- A range with an unreadable byte stops CYCLE at some block (R64). -/
theorem absorbBlocks_error_of_someUnreadable {α : Type} (A : Alg α) {m : Memory} {ptr k n : Nat} {h : α}
    (hu : SomeUnreadable m (ptr + k * A.bs) (n * A.bs)) : ∃ i, absorbBlocks A m ptr k n h = .error i := by
  induction n generalizing k h with
  | zero =>
    obtain ⟨j, hj, -⟩ := hu
    omega
  | succ n ih =>
    cases hb : memRead m (ptr + k * A.bs) A.bs with
    | none => exact ⟨k, absorbBlocks_succ_none A hb⟩
    | some b =>
      rw [absorbBlocks_succ_some A hb]
      refine ih ?_
      rw [Nat.succ_mul, Nat.add_comm (n * A.bs), someUnreadable_add, ← memRead_eq_none_iff, hb] at hu
      simpa [Nat.succ_mul, Nat.add_assoc] using hu

/-- The state after a fault of cause `k` at a core `c` that had not faulted: HashState `h`, `d` free values drawn
(`60_exceptions.md` R273). -/
def State.trapped (s : State) (c : CoreId) (k : Cause) (h : HashOf c) (d : Nat) : State :=
  s.putOf c { regs := ⟨h, .faulted, causeCode k⟩, epi := s.epi, draws := d, rc := causeRc k, rdata := noData }

section Traps

variable {s : State} {c : CoreId} {p n : Word64} (hs : s.live c)
include hs

/-- A CYCLE of a live core that ends by raising `k` latches its code. -/
theorem exec_cycle_of_raise {k : Cause} {w : View (HashOf c)} (hphase : w.regs.phase = s.phaseOf c)
    (hepi : w.epi = s.epi) (h : cycleCommand (algOf c) p n (s.viewOf c) = raise k w) :
    exec (instrOf c .cycle p n 0) s = .next (s.trapped c k w.regs.h w.draws) := by
  have hlive : w.regs.phase ≠ .faulted := by
    rw [hphase]
    rcases hs with hs | hs <;> simp [hs]
  rw [exec_instrOf, runOperation, h, raise, fcodeAfter_of_ne_faulted hlive, hepi, State.trapped]

/-- `AddrRange` comes before anything is read (R65). -/
theorem exec_cycle_addrRange (h : Config.addrSpace < p.toNat + n.toNat * blockSizeOf c) :
    exec (instrOf c .cycle p n 0) s = .next (s.trapped c .addrRange (s.regsOf c).h s.draws) := by
  have hfits : rangeFits p.toNat (n.toNat * (algOf c).bs) = false := by
    simpa only [rangeFits, algOf_bs, decide_eq_false_iff_not, not_le] using h
  refine exec_cycle_of_raise hs (w := s.viewOf c) (State.regsOf_phase s c) rfl ?_
  simp only [cycleCommand, State.viewOf_regs, State.regsOf_phase, admits_of_live hs (op := .cycle) (by decide), hfits]
  rfl

section Fits

variable (hfits : p.toNat + n.toNat * blockSizeOf c ≤ Config.addrSpace)
include hfits

/-- A range inside the address space whose absorption stops at block `i`. -/
theorem exec_cycle_readFault {i : Nat}
    (h : absorbBlocks (algOf c) s.mem p.toNat 0 n.toNat (s.regsOf c).h = .error i) :
    exec (instrOf c .cycle p n 0) s = .next (s.trapped c .readFault
      (faultedAtBlock (algOf c) i (s.viewOf c)).regs.h (faultedAtBlock (algOf c) i (s.viewOf c)).draws) := by
  have hfits' : rangeFits p.toNat (n.toNat * (algOf c).bs) = true := by
    simpa only [rangeFits, algOf_bs, decide_eq_true_eq] using hfits
  refine exec_cycle_of_raise hs (by simp) (by simp) ?_
  simp only [cycleCommand, State.viewOf_regs, State.viewOf_mem, State.regsOf_phase,
    admits_of_live hs (op := .cycle) (by decide), hfits', h]
  rfl

/-- An unreadable byte in block 0 keeps the HashState (assumption 3). -/
theorem exec_cycle_readFault_first (hn : 0 < n.toNat) (h : SomeUnreadable s.mem p.toNat (blockSizeOf c)) :
    exec (instrOf c .cycle p n 0) s = .next (s.trapped c .readFault (s.regsOf c).h s.draws) := by
  have hblock : memRead s.mem (p.toNat + 0 * (algOf c).bs) (algOf c).bs = none := by
    rw [Nat.zero_mul, algOf_bs]
    exact memRead_eq_none_iff.mpr h
  refine exec_cycle_readFault hs hfits (i := 0) ?_
  rw [← Nat.succ_pred_eq_of_pos hn]
  exact absorbBlocks_succ_none _ hblock

theorem exec_cycle_readFault_somewhere (h : SomeUnreadable s.mem p.toNat (n.toNat * blockSizeOf c)) :
    ∃ x d, exec (instrOf c .cycle p n 0) s = .next (s.trapped c .readFault x d) := by
  obtain ⟨i, hi⟩ := absorbBlocks_error_of_someUnreadable (algOf c) (k := 0) (h := (s.regsOf c).h)
    (by simpa using h)
  exact ⟨_, _, exec_cycle_readFault hs hfits hi⟩

end Fits

end Traps

/-- Settles O27: the three traps at each core. -/
theorem cycleFaultsOnItsRange : Obligations.CycleFaultsOnItsRange := by
  intro s p n
  refine ⟨fun hs => ?_, fun hs => ?_, fun hs => ?_, fun hs => ?_⟩
  all_goals exact ⟨exec_cycle_addrRange hs, exec_cycle_readFault_first hs,
    fun hfits _ => exec_cycle_readFault_somewhere hs hfits⟩

end Sys2Proof.Machine
end

section
/-! SUPPORT. The command word as its four fields (`30_encoding.md` R91 to R93): the word of a core and an operation, which
words decode, and the numbering of a command's bits undone. -/

namespace Sys2Proof

/-! ### The fields of a command word -/

/-- A command word is its four fields side by side, `RSV2` highest (R91). -/
theorem fields_append (cw : Word32) : rsv2Field cw ++ opField cw ++ rsv1Field cw ++ algField cw = cw := by
  have hop : rsv2Field cw ++ opField cw = cw.extractLsb' 4 28 :=
    BitVec.extractLsb'_append_extractLsb'_eq_extractLsb' rfl
  have h1 : cw.extractLsb' 4 28 ++ rsv1Field cw = cw.extractLsb' 2 30 :=
    BitVec.extractLsb'_append_extractLsb'_eq_extractLsb' rfl
  have hg : cw.extractLsb' 2 30 ++ algField cw = cw.extractLsb' 0 32 :=
    BitVec.extractLsb'_append_extractLsb'_eq_extractLsb' rfl
  rw [hop, h1, hg, BitVec.extractLsb'_eq_self]

/-- A mask picks out of each field what its own part of the mask picks. -/
theorem and_fields (cw : Word32) (m2 : BitVec 24) (mo : BitVec 4) (m1 mg : BitVec 2) :
    cw &&& (m2 ++ mo ++ m1 ++ mg) =
      (rsv2Field cw &&& m2) ++ (opField cw &&& mo) ++ (rsv1Field cw &&& m1) ++ (algField cw &&& mg) := by
  rw [← BitVec.and_append, ← BitVec.and_append, ← BitVec.and_append, fields_append]

/-- The value of `ALG` that names core `c` (R93). -/
def algCode : CoreId → BitVec 2
  | .ripemd256 => 0
  | .sha1 => 1
  | .sha256 => 2
  | .sha384 => 3

/-- The value of `OP` that names the operation (R92). -/
def opCode : Operation → BitVec 4
  | .init => 1
  | .cycle => 2
  | .finish => 3
  | .digest => 4
  | .erase => 5

theorem coreOf_eq_iff {g : BitVec 2} {c : CoreId} : coreOf g = c ↔ g = algCode c := by
  revert g
  cases c <;> decide

theorem operationOf_eq_some_iff {o : BitVec 4} {op : Operation} : operationOf o = some op ↔ o = opCode op := by
  revert o
  cases op <;> decide

theorem operationOf_eq_none_iff {o : BitVec 4} : operationOf o = none ↔ o = 0 ∨ 6 ≤ o.toNat := by
  revert o
  decide

/-- The command word of core `c` and operation `op`: reserved fields 0, `OP` and `ALG` as R92 and R93 number them. -/
def commandWord (c : CoreId) (op : Operation) : Word32 := 0#24 ++ opCode op ++ 0#2 ++ algCode c

theorem eq_commandWord_iff {cw : Word32} {c : CoreId} {op : Operation} :
    cw = commandWord c op ↔ rsv2Field cw = 0 ∧ opField cw = opCode op ∧ rsv1Field cw = 0 ∧ algField cw = algCode c := by
  constructor
  · rintro rfl
    cases c <;> cases op <;> decide
  · rintro ⟨h2, ho, h1, hg⟩
    rw [← fields_append cw, h2, ho, h1, hg]
    rfl

/-! ### Which words decode -/

/-- A command decodes exactly when its word is that of some core and operation, and then to their command. -/
theorem decode_eq_ok_iff {c : Command} {i : Instr} :
    decode c = .ok i ↔ ∃ core op, c.cw = commandWord core op ∧ i = instrOf core op c.a0 c.a1 c.a2 := by
  constructor
  · intro h
    obtain ⟨op, h2, h1, ho, rfl⟩ := decode_cases h
    exact ⟨_, op, eq_commandWord_iff.mpr ⟨h2, operationOf_eq_some_iff.mp ho, h1, coreOf_eq_iff.mp rfl⟩, rfl⟩
  · rintro ⟨core, op, hcw, rfl⟩
    obtain ⟨h2, ho, h1, hg⟩ := eq_commandWord_iff.mp hcw
    rw [decode_ok h2 h1 (operationOf_eq_some_iff.mpr ho), coreOf_eq_iff.mpr hg]

theorem decode_commandWord (core : CoreId) (op : Operation) (a0 a1 a2 : Word64) :
    decode ⟨commandWord core op, a0, a1, a2⟩ = .ok (instrOf core op a0 a1 a2) :=
  decode_eq_ok_iff.mpr ⟨core, op, rfl, rfl⟩

/-- A command that decodes to nothing is rejected under some name. -/
theorem exists_decode_error {c : Command} (h : ∀ i, decode c ≠ .ok i) : ∃ e, decode c = .error e := by
  cases hd : decode c with
  | error e => exact ⟨e, rfl⟩
  | ok i => exact absurd hd (h i)

/-- A reserved field that is not 0, or a reserved operation, decodes to nothing (R97). -/
theorem exists_decode_error_of_reserved {c : Command}
    (h : rsv2Field c.cw ≠ 0 ∨ rsv1Field c.cw ≠ 0 ∨ opField c.cw = 0 ∨ 6 ≤ (opField c.cw).toNat) :
    ∃ e, decode c = .error e := by
  refine exists_decode_error fun i hi => ?_
  obtain ⟨op, h2, h1, ho, -⟩ := decode_cases hi
  have hnone : operationOf (opField c.cw) = none :=
    operationOf_eq_none_iff.mpr ((h.resolve_left (not_not.mpr h2)).resolve_left (not_not.mpr h1))
  rw [hnone] at ho
  cases ho

/-! ### The encoder by core and operation -/

theorem encode_instrOf_cw (core : CoreId) (op : Operation) (a0 a1 a2 : Word64) :
    (encode (instrOf core op a0 a1 a2)).cw = commandWord core op := by
  cases core <;> cases op <;> rfl

theorem encode_instrOf_cycle (core : CoreId) (a0 a1 a2 : Word64) :
    encode (instrOf core .cycle a0 a1 a2) = ⟨commandWord core .cycle, a0, a1, 0⟩ := by
  cases core <;> rfl

theorem encode_instrOf_finish (core : CoreId) (a0 a1 a2 : Word64) :
    encode (instrOf core .finish a0 a1 a2) = ⟨commandWord core .finish, a0, a1, a2⟩ := by
  cases core <;> rfl

/-- INIT, DIGEST and ERASE carry no operand (R94). -/
theorem instrOf_congr_of_no_operand {op : Operation} (h : op = .init ∨ op = .digest ∨ op = .erase) (core : CoreId)
    (a0 a1 a2 b0 b1 b2 : Word64) : instrOf core op a0 a1 a2 = instrOf core op b0 b1 b2 := by
  rcases h with rfl | rfl | rfl <;> cases core <;> rfl

/-- CYCLE carries no `A2` (R94). -/
theorem instrOf_cycle_congr (core : CoreId) (a0 a1 a2 b2 : Word64) :
    instrOf core .cycle a0 a1 a2 = instrOf core .cycle a0 a1 b2 := by
  cases core <;> rfl

/-- Every command is that of its core and operation, with the operands its encoding holds. -/
theorem instrOf_encode (i : Instr) :
    instrOf i.coreId i.operation (encode i).a0 (encode i).a1 (encode i).a2 = i := by
  cases i <;> rfl

theorem encode_cw (i : Instr) : (encode i).cw = commandWord i.coreId i.operation := by
  rw [← instrOf_encode i, encode_instrOf_cw, instrOf_coreId, instrOf_operation]

/-- The decoder undoes the encoder. -/
theorem decode_encode (i : Instr) : decode (encode i) = .ok i :=
  decode_eq_ok_iff.mpr ⟨_, _, encode_cw i, (instrOf_encode i).symm⟩

/-! ### The masks of `WellFormed.lean` against the fields -/

theorem highReservedClear_iff {c : Command} : c.highReservedClear = true ↔ rsv2Field c.cw = 0 := by
  have hmask : c.cw &&& 0xFFFFFF00 = rsv2Field c.cw ++ 0#4 ++ 0#2 ++ 0#2 :=
    (and_fields c.cw (BitVec.allOnes 24) 0#4 0#2 0#2).trans (by simp only [BitVec.and_allOnes, BitVec.and_zero])
  have hzero : (0 : Word32) = 0#24 ++ 0#4 ++ 0#2 ++ 0#2 := rfl
  rw [Command.highReservedClear, hmask, beq_iff_eq, hzero, BitVec.append_left_inj, BitVec.append_left_inj,
    BitVec.append_left_inj]
  exact Iff.rfl

theorem lowReservedClear_iff {c : Command} : c.lowReservedClear = true ↔ rsv1Field c.cw = 0 := by
  have hmask : c.cw &&& 0x0000000C = 0#24 ++ 0#4 ++ rsv1Field c.cw ++ 0#2 :=
    (and_fields c.cw 0#24 0#4 (BitVec.allOnes 2) 0#2).trans (by simp only [BitVec.and_allOnes, BitVec.and_zero])
  rw [Command.lowReservedClear, hmask]
  generalize rsv1Field c.cw = r
  revert r
  decide

theorem operationDefined_iff {c : Command} : c.operationDefined = true ↔ (operationOf (opField c.cw)).isSome := by
  have hmask : c.cw &&& 0x000000F0 = 0#24 ++ opField c.cw ++ 0#2 ++ 0#2 :=
    (and_fields c.cw 0#24 (BitVec.allOnes 4) 0#2 0#2).trans (by simp only [BitVec.and_allOnes, BitVec.and_zero])
  rw [Command.operationDefined, hmask]
  generalize opField c.cw = o
  revert o
  decide

/-- The masks and the fields say the same of a command word (R91, R97). -/
theorem wellFormed_iff_decodes {c : Command} : c.wellFormed = true ↔ ∃ i, decode c = .ok i := by
  rw [Command.wellFormed, Bool.and_eq_true, Bool.and_eq_true, highReservedClear_iff, lowReservedClear_iff,
    operationDefined_iff, Option.isSome_iff_exists]
  constructor
  · rintro ⟨⟨h2, h1⟩, op, ho⟩
    exact ⟨_, decode_ok h2 h1 ho⟩
  · rintro ⟨i, hi⟩
    obtain ⟨op, h2, h1, ho, -⟩ := decode_cases hi
    exact ⟨⟨h2, h1⟩, op, ho⟩

/-! ### The bits of a command as one number -/

/-- The four registers are bits 31:0, 95:32, 159:96 and 223:160 (assumption 8). -/
theorem Command.toNat_lt (c : Command) : c.toNat < 2 ^ 224 := by
  unfold Command.toNat
  omega

/-- No register's bits run into another's. -/
theorem Command.ofNat_toNat (c : Command) : Command.ofNat c.toNat = c := by
  obtain ⟨cw, a0, a1, a2⟩ := c
  simp only [Command.ofNat, Command.toNat, Command.mk.injEq]
  refine ⟨?_, ?_, ?_, ?_⟩
  all_goals
    apply BitVec.eq_of_toNat_eq
    rw [BitVec.toNat_ofNat]
    omega

theorem tableCommand_toNat (c : Command) : tableCommand 224 c.toNat = c := by
  rw [tableCommand, Nat.mod_eq_of_lt c.toNat_lt, Command.ofNat_toNat]

theorem decodeTableWord_eq_some_iff {nbits w : Nat} {i : Instr} :
    decodeTableWord nbits w = some i ↔ decode (tableCommand nbits w) = .ok i := by
  unfold decodeTableWord
  cases decode (tableCommand nbits w) <;> simp

end Sys2Proof
end

section
/-! PROOFS. The statements of `30_encoding.md`: the opcode map (R102, R103), the round trip through a command's bits (R90,
R91), operands a command ignores (R94), and what a step makes of a presented word (R97, R103). -/

namespace Sys2Proof.Machine

/-! ### Decoding and encoding -/

/-- Settles O3: a command's bits give its registers back, and the decoder undoes the encoder. -/
theorem tableBitsRoundTrip : Obligations.TableBitsRoundTrip := by
  intro i
  refine ⟨(encode i).toNat_lt, decodeTableWord_eq_some_iff.mpr ?_⟩
  rw [tableCommand_toNat, decode_encode]

/-- Settles O2: each row is the word of a core and an operation, and no other word decodes. -/
theorem decodeIsTheOpcodeMap : Obligations.DecodeIsTheOpcodeMap := by
  constructor
  · intro a0 a1 a2
    have row (core : CoreId) (op : Operation) := decode_commandWord core op a0 a1 a2
    exact ⟨row .ripemd256 .init, row .ripemd256 .cycle, row .ripemd256 .finish, row .ripemd256 .digest,
      row .ripemd256 .erase, row .sha1 .init, row .sha1 .cycle, row .sha1 .finish, row .sha1 .digest, row .sha1 .erase,
      row .sha256 .init, row .sha256 .cycle, row .sha256 .finish, row .sha256 .digest, row .sha256 .erase,
      row .sha384 .init, row .sha384 .cycle, row .sha384 .finish, row .sha384 .digest, row .sha384 .erase⟩
  · intro c hc
    refine exists_decode_error fun i hi => hc ?_
    obtain ⟨core, op, hcw, -⟩ := decode_eq_ok_iff.mp hi
    rw [hcw]
    cases core <;> cases op <;> decide

/-- Settles O4: the word is that of the core and operation decoded, and CYCLE and FINISH keep their operands. -/
theorem decodedCommandKeepsItsWord : Obligations.DecodedCommandKeepsItsWord := by
  intro c i h
  obtain ⟨core, op, hcw, rfl⟩ := decode_eq_ok_iff.mp h
  rw [instrOf_operation]
  refine ⟨(encode_instrOf_cw ..).trans hcw.symm, ?_, ?_⟩
  · rintro (rfl | rfl)
    · rw [encode_instrOf_cycle]
      exact ⟨rfl, rfl⟩
    · rw [encode_instrOf_finish]
      exact ⟨rfl, rfl⟩
  · rintro rfl
    rw [encode_instrOf_finish]

/-- Settles O5: each mask test is the test of its field. -/
theorem wellFormedCommandsAreThoseThatDecode : Obligations.WellFormedCommandsAreThoseThatDecode :=
  fun _ => wellFormed_iff_decodes

/-- Settles O6: the word alone decides the core and the operation, and the instruction drops what the operation ignores. -/
theorem ignoredOperandsDoNotMatter : Obligations.IgnoredOperandsDoNotMatter := by
  intro c i a0 a1 a2 h
  obtain ⟨core, op, hcw, rfl⟩ := decode_eq_ok_iff.mp h
  rw [instrOf_operation]
  refine ⟨fun hop => decode_eq_ok_iff.mpr ⟨core, op, hcw, instrOf_congr_of_no_operand hop ..⟩, ?_⟩
  rintro rfl
  exact decode_eq_ok_iff.mpr ⟨core, .cycle, hcw, instrOf_cycle_congr ..⟩

/-- Settles O1: each sample word evaluated. -/
theorem decodeSampleWords : Obligations.DecodeSampleWords :=
  ⟨rfl, rfl, rfl, rfl, rfl, rfl, rfl, rfl, rfl, rfl, rfl, rfl⟩

/-! ### A presented word -/

/-- A command presented next is executed from the port (`40_sequencer.md` R120). -/
theorem decodable_step {s : State} {c : Command} {rest : List HostInput} {i : Instr}
    (h : s.inbox = .present c :: rest) (hd : decode c = .ok i) : step s = exec i ((s.setInbox rest).setPort c) :=
  (step_input h).trans (acceptCommand_ok (s := (s.setInbox rest).setPort c) hd)

/-- Settles O8: the placed word is the next input, and the command it decodes to is executed from the port. -/
theorem fetchedTableWordRuns : Obligations.FetchedTableWordRuns := by
  intro s nbits w i h
  have hin : (s.withFetchWord nbits w).inbox = .present (tableCommand nbits w) :: s.inbox := rfl
  exact decodable_step hin (decodeTableWord_eq_some_iff.mp h)

/-- Settles O9: a word with a reserved value decodes to nothing, and `illegalCommand` writes the response alone. -/
theorem undecodableWordOnlyAnswers : Obligations.UndecodableWordOnlyAnswers := by
  intro s c rest hin h
  obtain ⟨e, he⟩ := exists_decode_error_of_reserved h
  exact undecodable_step hin he

end Sys2Proof.Machine
end

section
/-! SUPPORT. Bytes read from a range that is cut in two, blocks chained over bytes that are cut in two, the epilogue as the
padded tail, and the state after an OK answer: what the CYCLE and FINISH of every core do to a message, said once. -/

namespace Sys2Proof.Machine

/-! ### Bytes of a range -/

/-- `MemRead` answers what memory holds (`20_memory.md` R64). -/
theorem memRead_of_memHolds {m : Memory} {addr : Nat} {bytes : List Byte} (h : MemHolds m addr bytes) :
    memRead m addr bytes.length = some bytes := by
  induction bytes generalizing addr with
  | nil => rfl
  | cons b bs ih =>
    obtain ⟨hb, hbs⟩ := memHolds_cons.mp h
    rw [List.length_cons, memRead_succ, hb, ih hbs]
    rfl

theorem memHolds_append {m : Memory} {addr : Nat} {a b : List Byte} :
    MemHolds m addr (a ++ b) ↔ MemHolds m addr a ∧ MemHolds m (addr + a.length) b := by
  induction a generalizing addr with
  | nil => simp [MemHolds]
  | cons x a ih =>
    rw [List.cons_append, memHolds_cons, memHolds_cons, ih, and_assoc, List.length_cons, Nat.add_assoc,
      Nat.add_comm 1 a.length]

/-- A readable range holds some bytes. -/
theorem exists_memHolds {m : Memory} {addr n : Nat} (h : ¬ SomeUnreadable m addr n) :
    ∃ bytes, bytes.length = n ∧ MemHolds m addr bytes := by
  obtain ⟨bytes, hb⟩ := Option.ne_none_iff_exists'.mp (mt memRead_eq_none_iff.mp h)
  exact ⟨bytes, memRead_length hb, memHolds_of_memRead hb⟩

theorem exists_append_of_le_length {bytes : List Byte} {n : Nat} (h : n ≤ bytes.length) :
    ∃ a b, bytes = a ++ b ∧ a.length = n :=
  ⟨bytes.take n, bytes.drop n, (List.take_append_drop n bytes).symm, List.length_take_of_le h⟩

/-- The bytes `k` past a 64-bit pointer, found at the pointer plus `k` modulo `2^64`:
where that sum wraps, there are none. -/
theorem memHolds_pointer_add {m : Memory} {p : Word64} {k : Nat} {b : List Byte} (h : MemHolds m (p.toNat + k) b)
    (hfits : p.toNat + k + b.length ≤ 2 ^ 64) :
    MemHolds m (p + BitVec.ofNat 64 k).toNat b ∧ (p + BitVec.ofNat 64 k).toNat + b.length ≤ 2 ^ 64 := by
  rcases Nat.eq_zero_or_pos b.length with hb | hb
  · obtain rfl := List.eq_nil_of_length_eq_zero hb
    exact ⟨fun j hj => absurd hj (Nat.not_lt_zero j), Nat.le_of_lt (BitVec.isLt _)⟩
  · have haddr : (p + BitVec.ofNat 64 k).toNat = p.toNat + k := by
      rw [BitVec.toNat_add, BitVec.toNat_ofNat, Nat.add_mod_mod, Nat.mod_eq_of_lt (by omega)]
    rw [haddr]
    exact ⟨h, hfits⟩

/-! ### Blocks chained -/

section Chain

variable {α : Type} (absorb : α → List Byte → α) (bs : Nat)

/-- The first block is absorbed first (`10_state.md` R22). -/
theorem chainBlocks_succ (n : Nat) (bytes : List Byte) (h : α) :
    chainBlocks absorb bs (n + 1) bytes h =
      chainBlocks absorb bs n (bytes.drop bs) (absorb h (bytes.take bs)) := by
  simp [chainBlocks, List.range_succ_eq_map, List.foldl_map, List.drop_drop, Nat.succ_mul, Nat.add_comm]

/-- Chaining is a left fold: the blocks of `a`, then those of `b` (`40_sequencer.md` R122). -/
theorem chainBlocks_append {q : Nat} {a : List Byte} (ha : a.length = q * bs) (n : Nat) (b : List Byte) (h : α) :
    chainBlocks absorb bs (q + n) (a ++ b) h = chainBlocks absorb bs n b (chainBlocks absorb bs q a h) := by
  induction q generalizing a h with
  | zero =>
    obtain rfl := List.eq_nil_of_length_eq_zero (ha.trans (Nat.zero_mul bs))
    rw [Nat.zero_add]
    rfl
  | succ q ih =>
    rw [Nat.succ_mul] at ha
    have hle : bs ≤ a.length := by omega
    rw [Nat.succ_add, chainBlocks_succ, chainBlocks_succ, List.take_append_of_le_length hle,
      List.drop_append_of_le_length hle, ih (by rw [List.length_drop]; omega)]

end Chain

/-- CYCLE over bytes that memory holds chains their blocks (`40_sequencer.md` R122). -/
theorem absorbBlocks_eq_chainBlocks {α : Type} (A : Alg α) {m : Memory} {ptr k n : Nat} {bytes : List Byte}
    (hm : MemHolds m (ptr + k * A.bs) bytes) (hlen : bytes.length = n * A.bs) (h : α) :
    absorbBlocks A m ptr k n h = .ok (chainBlocks A.absorb A.bs n bytes h) := by
  induction n generalizing k bytes h with
  | zero => rfl
  | succ n ih =>
    rw [Nat.succ_mul] at hlen
    obtain ⟨a, b, rfl, ha⟩ := exists_append_of_le_length (bytes := bytes) (n := A.bs) (by omega)
    obtain ⟨hma, hmb⟩ := memHolds_append.mp hm
    rw [ha, Nat.add_assoc, ← Nat.succ_mul] at hmb
    have hread : memRead m (ptr + k * A.bs) A.bs = some a := by
      simpa only [ha] using memRead_of_memHolds hma
    rw [absorbBlocks_succ_some A hread, ih hmb (by rw [List.length_append] at hlen; omega), chainBlocks_succ,
      List.take_left' ha, List.drop_left' ha]

/-! ### The padded tail -/

/-- Bytes stored just past `a` replace as many of the zeros there. -/
theorem storeBytes_zeros {off n k : Nat} {a b : List Byte} (ha : a.length = off) (h : b.length + k = n) :
    storeBytes (a ++ List.replicate n 0) off b = a ++ b ++ List.replicate k 0 := by
  subst ha h
  rw [storeBytes_eq _ _ _ (by simp), List.take_left, List.drop_append]
  simp

/-- A cleared `EPI` holds the padded tail and zeros once the epilogue is built (`40_sequencer.md` R124, R125). -/
theorem buildEpilogue_zeros {α : Type} {A : Alg α} {t : List Byte} {total : Word64} {L k : Nat}
    (hL : epilogueBlocks A t.length * A.bs = L) (hfield : (A.lengthField total).length = A.lfs)
    (hfits : t.length + 1 + A.lfs ≤ L) :
    buildEpilogue A t total (List.replicate (L + k) 0) =
      paddedTail L t (A.lengthField total) ++ List.replicate k 0 := by
  have htail : storeBytes (List.replicate (L + k) 0) 0 t = t ++ List.replicate (L + k - t.length) 0 :=
    storeBytes_zeros (a := []) rfl (by omega)
  have hmarker : storeBytes (t ++ List.replicate (L + k - t.length) 0) t.length [0x80] =
      t ++ [0x80] ++ List.replicate (L - A.lfs - t.length - 1) 0 ++ List.replicate (A.lfs + k) 0 := by
    rw [storeBytes_zeros rfl (k := L + k - t.length - 1) (by simp; omega), List.append_assoc _ (List.replicate _ _),
      List.replicate_append_replicate]
    congr 2
    omega
  rw [buildEpilogue, htail, hmarker, hL, storeBytes_zeros (k := k) (by simp; omega) (by omega), paddedTail, hfield]

/-! ### The padded message of a core -/

/-- How many blocks hold a message of `n` bytes, its marker and its length field (`40_sequencer.md` R125, R126). -/
def paddedBlocks (c : CoreId) (n : Nat) : Nat := (n + (algOf c).lfs) / blockSizeOf c + 1

/-- The HashState once the padded bytes have been absorbed and the words swapped (`40_sequencer.md` R124, R128). -/
def paddedHash (c : CoreId) (bytes : List Byte) (total : Word64) (h : HashOf c) : HashOf c :=
  (algOf c).finalSwap (chainBlocks (algOf c).absorb (blockSizeOf c) (paddedBlocks c bytes.length)
    (paddedTail (paddedBlocks c bytes.length * blockSizeOf c) bytes ((algOf c).lengthField total)) h)

theorem blockSizeOf_pos (c : CoreId) : 0 < blockSizeOf c := by
  cases c <;> decide

@[simp] theorem tailLimit_algOf (c : CoreId) : tailLimit (algOf c) = tailLimitOf c := by
  cases c <;> rfl

@[simp] theorem toBeBytes_length {w : Nat} (v : BitVec w) : (toBeBytes v).length = w / 8 := by
  rw [toBeBytes_eq_reverse, List.length_reverse, toLeBytes_length]

@[simp] theorem lengthField_length (c : CoreId) (total : Word64) :
    ((algOf c).lengthField total).length = (algOf c).lfs := by
  cases c with
  | ripemd256 => exact toLeBytes_length _
  | sha1 | sha256 => exact toBeBytes_length _
  | sha384 =>
    rw [show (algOf .sha384).lengthField total = toBeBytes _ ++ toBeBytes _ from rfl, List.length_append,
      toBeBytes_length, toBeBytes_length]
    rfl

/-- The marker and the length field fit behind the message in its blocks. -/
theorem padding_fits (c : CoreId) (n : Nat) : n + 1 + (algOf c).lfs ≤ paddedBlocks c n * blockSizeOf c := by
  have hlt := Nat.lt_div_mul_add (a := n + (algOf c).lfs) (blockSizeOf_pos c)
  rw [paddedBlocks, Nat.succ_mul]
  omega

/-- A tail FINISH accepts has one block of padding up to `BS - LFS - 1` bytes and two above (`40_sequencer.md` R126). -/
theorem paddedBlocks_of_tail {c : CoreId} {n : Nat} (h : n ≤ tailLimitOf c) :
    paddedBlocks c n = if n ≤ blockSizeOf c - (algOf c).lfs - 1 then 1 else 2 := by
  have hdiv {bs lfs : Nat} (hlfs : lfs < bs) (hn : n ≤ 2 * bs - lfs - 1) :
      (n + lfs) / bs + 1 = if n ≤ bs - lfs - 1 then 1 else 2 := by
    split
    · rw [Nat.div_eq_of_lt (by omega)]
    · rw [Nat.div_eq_of_lt_le (k := 1) (by omega) (by omega)]
  cases c with
  | ripemd256 | sha1 | sha256 => exact hdiv (bs := 64) (lfs := 8) (by decide) h
  | sha384 => exact hdiv (bs := 128) (lfs := 16) (by decide) h

theorem epilogueBlocks_algOf {c : CoreId} {n : Nat} (h : n ≤ tailLimitOf c) :
    epilogueBlocks (algOf c) n = paddedBlocks c n := by
  rw [paddedBlocks_of_tail h, epilogueBlocks, algOf_bs]
  congr 1
  rw [eq_iff_iff]
  have hlfs : (algOf c).lfs < blockSizeOf c := by cases c <;> decide
  omega

/-- Whole blocks in front of a message are absorbed before its padding (`40_sequencer.md` R137, R139). -/
theorem paddedHash_append {c : CoreId} {q : Nat} {a : List Byte} (ha : a.length = q * blockSizeOf c) (b : List Byte)
    (total : Word64) (h : HashOf c) :
    paddedHash c (a ++ b) total h =
      paddedHash c b total (chainBlocks (algOf c).absorb (blockSizeOf c) q a h) := by
  have hblocks : paddedBlocks c (a ++ b).length = q + paddedBlocks c b.length := by
    rw [paddedBlocks, paddedBlocks, List.length_append, ha, Nat.add_assoc, Nat.mul_comm q,
      Nat.mul_add_div (blockSizeOf_pos c), Nat.add_assoc]
  have htail : paddedTail ((q + paddedBlocks c b.length) * blockSizeOf c) (a ++ b) ((algOf c).lengthField total) =
      a ++ paddedTail (paddedBlocks c b.length * blockSizeOf c) b ((algOf c).lengthField total) := by
    have hzeros : (q + paddedBlocks c b.length) * blockSizeOf c - (algOf c).lfs - (a ++ b).length - 1 =
        paddedBlocks c b.length * blockSizeOf c - (algOf c).lfs - b.length - 1 := by
      rw [Nat.add_mul, List.length_append, ha]
      omega
    simp only [paddedTail, lengthField_length, hzeros, List.append_assoc]
  rw [paddedHash, hblocks, htail, chainBlocks_append _ _ ha, paddedHash]

/-- FINISH over a cleared `EPI` absorbs the padded tail (`40_sequencer.md` R124). -/
theorem absorbEpilogue_eq {c : CoreId} {t : List Byte} (ht : t.length ≤ tailLimitOf c) (total : Word64) (h : HashOf c) :
    (algOf c).finalSwap (absorbEpilogue (algOf c) (buildEpilogue (algOf c) t total (List.replicate 256 0))
      (epilogueBlocks (algOf c) t.length) h) = paddedHash c t total h := by
  have hle : paddedBlocks c t.length * blockSizeOf c ≤ 256 := by
    rw [paddedBlocks_of_tail ht]
    cases c <;> split <;> decide
  have hbuilt := buildEpilogue_zeros (A := algOf c) (t := t) (total := total)
    (k := 256 - paddedBlocks c t.length * blockSizeOf c) (by rw [epilogueBlocks_algOf ht, algOf_bs])
    (lengthField_length c total) (padding_fits c t.length)
  rw [Nat.add_sub_cancel' hle] at hbuilt
  have hlen : (paddedTail (paddedBlocks c t.length * blockSizeOf c) t ((algOf c).lengthField total)).length =
      paddedBlocks c t.length * blockSizeOf c := by
    have hpad := padding_fits c t.length
    simp only [paddedTail, List.length_append, List.length_replicate, lengthField_length, List.length_singleton]
    omega
  have hchain : absorbEpilogue (algOf c) = fun epi n h => chainBlocks (algOf c).absorb (blockSizeOf c) n epi h := by
    rw [← algOf_bs]
    rfl
  rw [hbuilt, epilogueBlocks_algOf ht, hchain]
  exact congrArg _ (chainBlocks_append _ _ hlen 0 _ h)

/-! ### The state after an OK answer -/

/-- The state in which core `c` has answered OK with no data, its registers left as `k` (`30_encoding.md` R95). -/
def State.answered (s : State) (c : CoreId) (k : CoreRegs (HashOf c)) : State :=
  s.putOf c (respondOk (s.viewOf c) k)

section Answered

variable (s : State) (c : CoreId) (k : CoreRegs (HashOf c))

@[simp] theorem State.answered_rc : (s.answered c k).rc = 0 := by simp [State.answered]
@[simp] theorem State.answered_epi : (s.answered c k).epi = s.epi := by simp [State.answered]
@[simp] theorem State.answered_mem : (s.answered c k).mem = s.mem := by simp [State.answered]
@[simp] theorem State.regsOf_answered : (s.answered c k).regsOf c = k := by simp [State.answered]
@[simp] theorem State.phaseOf_answered : (s.answered c k).phaseOf c = k.phase := by simp [State.answered]
@[simp] theorem State.fcodeOf_answered : (s.answered c k).fcodeOf c = k.fcode := by simp [State.answered]

/-- A second OK answer of the core replaces the first. -/
@[simp] theorem State.answered_answered (k' : CoreRegs (HashOf c)) :
    (s.answered c k).answered c k' = s.answered c k' := by
  cases c <;> rfl

end Answered

theorem execAll_next {i : Instr} {s t : State} (h : exec i s = .next t) (is : List Instr) :
    execAll (i :: is) s = execAll is t := by
  rw [execAll, h]

/-! ### Commands that answer OK -/

theorem admits_init_iff {p : Phase} : admits .init p = true ↔ p = .idle := by
  cases p <;> decide

/-- INIT of an IDLE core (`40_sequencer.md` R121). -/
theorem exec_init_idle {s : State} {c : CoreId} (h : s.phaseOf c = .idle) :
    exec (instrOf c .init 0 0 0) s = .next (s.answered c ⟨(algOf c).iv, .active, s.fcodeOf c⟩) := by
  rw [exec_instrOf, runOperation, initCommand, State.viewOf_regs, State.regsOf_phase, if_pos (admits_init_iff.mpr h),
    ← State.regsOf_fcode]
  rfl

/-- INIT of a core that is not IDLE is refused by the phase test (`40_sequencer.md` R121). -/
theorem exec_init_not_idle {s : State} {c : CoreId} (h : s.phaseOf c ≠ .idle) :
    exec (instrOf c .init 0 0 0) s = .next (s.putOf c (raise .badPhase (s.viewOf c))) := by
  rw [exec_instrOf, runOperation, initCommand, State.viewOf_regs, State.regsOf_phase, if_neg (mt admits_init_iff.mp h)]

section Live

variable {s : State} {c : CoreId} (hs : s.live c)
include hs

theorem admits_viewOf {op : Operation} (hop : op ≠ .init) : admits op (s.viewOf c).regs.phase = true := by
  rw [State.viewOf_regs, State.regsOf_phase]
  exact admits_of_live hs hop

theorem live_answered {k : CoreRegs (HashOf c)} (hk : k.phase = s.phaseOf c ∨ k.phase = .final) :
    (s.answered c k).live c := by
  rw [State.live, State.phaseOf_answered]
  rcases hk with hk | hk
  · exact hk ▸ hs
  · exact .inr hk

/-- CYCLE over readable blocks inside the address space (`40_sequencer.md` R122). -/
theorem exec_cycle_ok {p n : Word64} {bytes : List Byte} (hm : MemHolds s.mem p.toNat bytes)
    (hfits : p.toNat + n.toNat * blockSizeOf c ≤ 2 ^ 64) (hlen : bytes.length = n.toNat * blockSizeOf c) :
    exec (instrOf c .cycle p n 0) s = .next (s.answered c
      ⟨chainBlocks (algOf c).absorb (blockSizeOf c) n.toNat bytes (s.regsOf c).h, s.phaseOf c, s.fcodeOf c⟩) := by
  have hblocks : absorbBlocks (algOf c) s.mem p.toNat 0 n.toNat (s.regsOf c).h =
      .ok (chainBlocks (algOf c).absorb (blockSizeOf c) n.toNat bytes (s.regsOf c).h) := by
    rw [absorbBlocks_eq_chainBlocks _ (by simpa using hm) (by rw [hlen, algOf_bs]), algOf_bs]
  have hfits' : rangeFits p.toNat (n.toNat * (algOf c).bs) = true := by
    rw [algOf_bs]
    exact decide_eq_true hfits
  rw [exec_instrOf, runOperation, cycleCommand, if_pos (admits_viewOf hs (op := .cycle) nofun), if_pos hfits',
    State.viewOf_mem, State.viewOf_regs, hblocks, ← State.regsOf_phase, ← State.regsOf_fcode]
  rfl

/-- FINISH over a readable tail inside the address space, with `EPI` cleared (`40_sequencer.md` R124). -/
theorem exec_finish_ok {p size total : Word64} {tail : List Byte} (hepi : s.epi = List.replicate 256 0)
    (hm : MemHolds s.mem p.toNat tail) (hlen : tail.length = size.toNat) (hfits : p.toNat + size.toNat ≤ 2 ^ 64)
    (hlimit : size.toNat ≤ tailLimitOf c) :
    exec (instrOf c .finish p size total) s =
      .next (s.answered c ⟨paddedHash c tail total (s.regsOf c).h, .final, s.fcodeOf c⟩) := by
  have hread : memRead s.mem p.toNat size.toNat = some tail := hlen ▸ memRead_of_memHolds hm
  have hfits' : rangeFits p.toNat size.toNat = true := decide_eq_true hfits
  have hwiped : wiped (s.viewOf c) = s.viewOf c := by rw [wiped, State.viewOf, hepi]
  rw [exec_instrOf, runOperation, finishCommand, if_pos (admits_viewOf hs (op := .finish) nofun),
    if_neg (by simpa using hlimit), hfits', State.viewOf_mem, hread]
  simp only [finishWithTail, State.viewOf_epi, hepi, hwiped, absorbEpilogue_eq (hlen ▸ hlimit), ← State.regsOf_fcode]
  rfl

/-- DIGEST of a live core (`40_sequencer.md` R129). -/
theorem exec_digest_ok :
    exec (instrOf c .digest 0 0 0) s = .next { s with
      rc := 0
      rdata := padResponse (digestBytes (algOf c) (s.regsOf c).h) } := by
  rw [exec_instrOf, runOperation, digestCommand, if_pos (admits_viewOf hs (op := .digest) nofun)]
  cases c <;> rfl

/-- CYCLE of the first `q` blocks and FINISH of the rest leave the HashState of the whole padded message, wherever it was
cut (`40_sequencer.md` R137, R139). -/
theorem execAll_cycle_finish {p q r total : Word64} {bytes : List Byte} (hepi : s.epi = List.replicate 256 0)
    (hm : MemHolds s.mem p.toNat bytes) (hfits : p.toNat + bytes.length ≤ 2 ^ 64)
    (hcut : bytes.length = q.toNat * blockSizeOf c + r.toNat) (hlimit : r.toNat ≤ tailLimitOf c) (is : List Instr) :
    execAll (instrOf c .cycle p q 0 ::
        instrOf c .finish (p + BitVec.ofNat 64 (q.toNat * blockSizeOf c)) r total :: is) s =
      execAll is (s.answered c ⟨paddedHash c bytes total (s.regsOf c).h, .final, s.fcodeOf c⟩) := by
  obtain ⟨a, b, rfl, ha⟩ := exists_append_of_le_length (bytes := bytes) (hcut ▸ Nat.le_add_right _ _)
  rw [List.length_append, ha] at hfits hcut
  obtain ⟨hma, hmb⟩ := memHolds_append.mp hm
  obtain ⟨hmb', hfits'⟩ := memHolds_pointer_add (ha ▸ hmb) (by omega)
  have hb : b.length = r.toNat := by omega
  rw [execAll_next (exec_cycle_ok hs hma (by omega) ha), execAll_next (exec_finish_ok (live_answered hs (.inl rfl))
    ((State.answered_epi ..).trans hepi) (by rwa [State.answered_mem]) hb (hb ▸ hfits') hlimit), paddedHash_append ha]
  simp

end Live

end Sys2Proof.Machine
end

section
/-! PROOFS. The statements of `40_sequencer.md`: acceptance (R120), INIT (R121), CYCLE (R122), FINISH (R124 to R128), DIGEST
(R129), what each operation leaves of its own core, and that a message may be cut anywhere (R137, R139). -/

namespace Sys2Proof.Machine

/-! ### Operands the host computes -/

/-- A block count times the block size, as the host computes it for an operand. -/
theorem mul_ofNat_eq_ofNat (q : Word64) (k : Nat) : q * BitVec.ofNat 64 k = BitVec.ofNat 64 (q.toNat * k) := by
  rw [BitVec.ofNat_mul, BitVec.ofNat_toNat, BitVec.setWidth_eq]

/-- What is left of `n` bytes after `q` blocks, as the host computes it for an operand. -/
theorem toNat_sub_mul_ofNat {n q : Word64} {k : Nat} (h : q.toNat * k ≤ n.toNat) :
    (n - q * BitVec.ofNat 64 k).toNat = n.toNat - q.toNat * k := by
  have hmul : (q * BitVec.ofNat 64 k).toNat = q.toNat * k := by
    rw [mul_ofNat_eq_ofNat, BitVec.toNat_ofNat, Nat.mod_eq_of_lt (Nat.lt_of_le_of_lt h n.isLt)]
  rw [BitVec.toNat_sub_of_le (by rwa [BitVec.le_def, hmul]), hmul]

/-! ### Acceptance and INIT -/

/-- Settles O7: the command is sampled from the port into which the host has put it. -/
theorem stepRunsDecodedCommand : Obligations.StepRunsDecodedCommand :=
  fun _ _ _ _ => decodable_step

/-- Settles O24: INIT passes the phase test exactly in IDLE. -/
theorem initLoadsTheInitialValue : Obligations.InitLoadsTheInitialValue := by
  intro s
  exact ⟨exec_init_idle (c := .ripemd256), fun h => ⟨_, exec_init_not_idle (c := .ripemd256) h⟩,
    exec_init_idle (c := .sha1), fun h => ⟨_, exec_init_not_idle (c := .sha1) h⟩,
    exec_init_idle (c := .sha256), fun h => ⟨_, exec_init_not_idle (c := .sha256) h⟩,
    exec_init_idle (c := .sha384), fun h => ⟨_, exec_init_not_idle (c := .sha384) h⟩⟩

/-! ### CYCLE -/

/-- Settles O25: the same chaining at each core. -/
theorem cycleAbsorbsItsBlocks : Obligations.CycleAbsorbsItsBlocks := by
  intro s p n bytes hm
  exact ⟨fun hs => exec_cycle_ok (c := .ripemd256) hs hm, fun hs => exec_cycle_ok (c := .sha1) hs hm,
    fun hs => exec_cycle_ok (c := .sha256) hs hm, fun hs => exec_cycle_ok (c := .sha384) hs hm⟩

/-- Two CYCLE over adjacent ranges chain the blocks of the first range and then those of the second. -/
theorem execAll_cycle_cycle {s : State} {c : CoreId} (hs : s.live c) {p m n : Word64}
    (hfits : p.toNat + (m.toNat + n.toNat) * blockSizeOf c ≤ 2 ^ 64)
    (hread : ¬ SomeUnreadable s.mem p.toNat ((m.toNat + n.toNat) * blockSizeOf c)) :
    ∃ t, execAll [instrOf c .cycle p m 0, instrOf c .cycle (p + m * BitVec.ofNat 64 (blockSizeOf c)) n 0] s = some t ∧
      t.rc = 0 ∧ exec (instrOf c .cycle p (m + n) 0) s = .next t := by
  obtain ⟨bytes, hlen, hm⟩ := exists_memHolds hread
  have hcount : (m + n).toNat = m.toNat + n.toNat := by
    have hle : (m.toNat + n.toNat) * 64 ≤ (m.toNat + n.toNat) * blockSizeOf c :=
      Nat.mul_le_mul_left _ (by cases c <;> decide)
    exact BitVec.toNat_add_of_lt (by omega)
  have hwhole := exec_cycle_ok hs hm (n := m + n) (hcount ▸ hfits) (hcount ▸ hlen)
  rw [Nat.add_mul] at hfits hlen
  obtain ⟨a, b, rfl, ha⟩ := exists_append_of_le_length (hlen ▸ Nat.le_add_right (m.toNat * blockSizeOf c) _)
  have hb : b.length = n.toNat * blockSizeOf c := by rw [List.length_append] at hlen; omega
  obtain ⟨hma, hmb⟩ := memHolds_append.mp hm
  obtain ⟨hmb', hfits'⟩ := memHolds_pointer_add (ha ▸ hmb) (by omega)
  refine ⟨_, ?_, State.answered_rc .., hwhole⟩
  rw [mul_ofNat_eq_ofNat, execAll_next (exec_cycle_ok hs hma (by omega) ha), execAll_next (exec_cycle_ok
    (live_answered hs (.inl rfl)) (by rwa [State.answered_mem]) (hb ▸ hfits') hb), hcount, chainBlocks_append _ _ ha]
  simp [execAll]

/-- Settles O28: the two CYCLE at each core. -/
theorem cycleSplitsAnywhere : Obligations.CycleSplitsAnywhere := by
  intro s p m n
  exact ⟨fun hs => execAll_cycle_cycle (c := .ripemd256) hs, fun hs => execAll_cycle_cycle (c := .sha1) hs,
    fun hs => execAll_cycle_cycle (c := .sha256) hs, fun hs => execAll_cycle_cycle (c := .sha384) hs⟩

/-! ### FINISH -/

/-- The padded hash of a tail, its one or two blocks written out. -/
theorem paddedHash_of_tail {c : CoreId} {tail : List Byte} {n : Nat} (hlen : tail.length = n) (h : n ≤ tailLimitOf c)
    (total : Word64) (x : HashOf c) :
    paddedHash c tail total x =
      (algOf c).finalSwap (chainBlocks (algOf c).absorb (blockSizeOf c)
        (if n ≤ blockSizeOf c - (algOf c).lfs - 1 then 1 else 2)
        (paddedTail (if n ≤ blockSizeOf c - (algOf c).lfs - 1 then blockSizeOf c else 2 * blockSizeOf c) tail
          ((algOf c).lengthField total)) x) := by
  rw [paddedHash, hlen, paddedBlocks_of_tail h, ite_mul, Nat.one_mul]

/-- Settles O29: FINISH of a tail at each core, its one or two blocks written out. -/
theorem finishPadsAbsorbsAndEnds : Obligations.FinishPadsAbsorbsAndEnds := by
  intro s p size total tail hepi hm hlen hfits
  have finish {c : CoreId} (hs : s.live c) (hlimit : size.toNat ≤ tailLimitOf c) :=
    paddedHash_of_tail hlen hlimit total (s.regsOf c).h ▸
      exec_finish_ok hs (total := total) hepi hm hlen hfits hlimit
  exact ⟨finish (c := .ripemd256), finish (c := .sha1), finish (c := .sha256), finish (c := .sha384)⟩

section FinishFaults

variable {s : State} {c : CoreId} {p size : Word64} (hs : s.live c) (total : Word64)
include hs

/-- The state after a FINISH that ends by raising `k`: `EPI` wiped, the HashState kept (`60_exceptions.md` R273). -/
theorem exec_finish_of_raise {k : Cause}
    (h : finishCommand (algOf c) p size total (s.viewOf c) = raise k (wiped (s.viewOf c))) :
    exec (instrOf c .finish p size total) s =
      .next (({ s with epi := List.replicate 256 0 } : State).trapped c k (s.regsOf c).h s.draws) := by
  have hlive : s.phaseOf c ≠ .faulted := by
    rcases hs with hs | hs <;> simp [hs]
  rw [exec_instrOf, runOperation, h, raise, wiped_regs, State.viewOf_regs, State.regsOf_phase,
    fcodeAfter_of_ne_faulted hlive]
  cases c <;> rfl

theorem exec_finish_tailTooLong (h : tailLimitOf c < size.toNat) :
    exec (instrOf c .finish p size total) s =
      .next (({ s with epi := List.replicate 256 0 } : State).trapped c .tailTooLong (s.regsOf c).h s.draws) := by
  refine exec_finish_of_raise hs total ?_
  rw [finishCommand, if_pos (admits_viewOf hs (op := .finish) nofun), if_pos (by simpa using h)]

theorem exec_finish_addrRange (hlimit : size.toNat ≤ tailLimitOf c) (h : 2 ^ 64 < p.toNat + size.toNat) :
    exec (instrOf c .finish p size total) s =
      .next (({ s with epi := List.replicate 256 0 } : State).trapped c .addrRange (s.regsOf c).h s.draws) := by
  have hfits : rangeFits p.toNat size.toNat = false := decide_eq_false (Nat.not_le.mpr h)
  refine exec_finish_of_raise hs total ?_
  rw [finishCommand, if_pos (admits_viewOf hs (op := .finish) nofun), if_neg (by simpa using hlimit), hfits]
  rfl

theorem exec_finish_readFault (hlimit : size.toNat ≤ tailLimitOf c) (hfits : p.toNat + size.toNat ≤ 2 ^ 64)
    (h : SomeUnreadable s.mem p.toNat size.toNat) :
    exec (instrOf c .finish p size total) s =
      .next (({ s with epi := List.replicate 256 0 } : State).trapped c .readFault (s.regsOf c).h s.draws) := by
  have hfits' : rangeFits p.toNat size.toNat = true := decide_eq_true hfits
  refine exec_finish_of_raise hs total ?_
  rw [finishCommand, if_pos (admits_viewOf hs (op := .finish) nofun), if_neg (by simpa using hlimit), hfits',
    State.viewOf_mem, memRead_eq_none_iff.mpr h]
  rfl

end FinishFaults

/-- Settles O30: the three faults at each core. -/
theorem finishFaultsOnItsOperands : Obligations.FinishFaultsOnItsOperands := by
  intro s p size total
  refine ⟨fun hs => ?_, fun hs => ?_, fun hs => ?_, fun hs => ?_⟩
  all_goals exact ⟨exec_finish_tailTooLong hs total, exec_finish_addrRange hs total, exec_finish_readFault hs total⟩

/-! ### A message cut anywhere -/

/-- FINISH of a tail that holds a block, against CYCLE of that block and FINISH of the rest. -/
theorem exec_finish_eq_cycle_finish {s : State} {p size : Word64} (total : Word64)
    (hepi : s.epi = List.replicate 256 0) (hfits : p.toNat + size.toNat ≤ 2 ^ 64)
    (hread : ¬ SomeUnreadable s.mem p.toNat size.toNat) {c : CoreId} (hs : s.live c)
    (hblock : blockSizeOf c ≤ size.toNat) (hlimit : size.toNat ≤ tailLimitOf c) :
    ∃ t, exec (instrOf c .finish p size total) s = .next t ∧ t.rc = 0 ∧
      execAll [instrOf c .cycle p 1 0, instrOf c .finish (p + BitVec.ofNat 64 (blockSizeOf c))
        (size - BitVec.ofNat 64 (blockSizeOf c)) total] s = some t := by
  obtain ⟨bytes, hlen, hm⟩ := exists_memHolds hread
  have hrest : (size - BitVec.ofNat 64 (blockSizeOf c)).toNat = size.toNat - blockSizeOf c := by
    simpa using toNat_sub_mul_ofNat (q := 1) (k := blockSizeOf c) (by simpa using hblock)
  have hcut : bytes.length =
      (1 : Word64).toNat * blockSizeOf c + (size - BitVec.ofNat 64 (blockSizeOf c)).toNat := by
    rw [hlen, hrest, show (1 : Word64).toNat = 1 from rfl, Nat.one_mul, Nat.add_sub_cancel' hblock]
  refine ⟨_, exec_finish_ok hs hepi hm hlen hfits hlimit, State.answered_rc .., ?_⟩
  simpa [execAll] using execAll_cycle_finish hs hepi hm (hlen ▸ hfits) hcut (by omega) []

/-- Settles O32: both leave the HashState of the padded tail. -/
theorem longTailEqualsCycleThenFinish : Obligations.LongTailEqualsCycleThenFinish := by
  intro s p size total hepi hfits hread
  have cut {c : CoreId} := exec_finish_eq_cycle_finish total hepi hfits hread (c := c)
  exact ⟨cut (c := .ripemd256), cut (c := .sha1), cut (c := .sha256), cut (c := .sha384)⟩

/-- INIT, CYCLE of `q` blocks, FINISH of the rest and DIGEST of a message end in a state that does not depend on `q`. -/
theorem execAll_digest_of_split {c : CoreId} {s : State} {p n q : Word64} {bytes : List Byte}
    (hidle : s.phaseOf c = .idle) (hepi : s.epi = List.replicate 256 0) (hm : MemHolds s.mem p.toNat bytes)
    (hlen : bytes.length = n.toNat) (hfits : p.toNat + n.toNat ≤ 2 ^ 64) (hq : q.toNat * blockSizeOf c ≤ n.toNat)
    (hlimit : n.toNat - q.toNat * blockSizeOf c ≤ tailLimitOf c) :
    execAll [instrOf c .init 0 0 0, instrOf c .cycle p q 0,
        instrOf c .finish (p + q * BitVec.ofNat 64 (blockSizeOf c)) (n - q * BitVec.ofNat 64 (blockSizeOf c)) n,
        instrOf c .digest 0 0 0] s =
      execAll [instrOf c .digest 0 0 0]
        (s.answered c ⟨paddedHash c bytes n (algOf c).iv, .final, s.fcodeOf c⟩) := by
  have hrest := toNat_sub_mul_ofNat hq
  rw [mul_ofNat_eq_ofNat] at hrest
  have hcut : bytes.length = q.toNat * blockSizeOf c + (n - BitVec.ofNat 64 (q.toNat * blockSizeOf c)).toNat := by omega
  have hlive : (s.answered c ⟨(algOf c).iv, .active, s.fcodeOf c⟩).live c := .inl (State.phaseOf_answered ..)
  rw [execAll_next (exec_init_idle hidle), mul_ofNat_eq_ofNat, execAll_cycle_finish hlive
    ((State.answered_epi ..).trans hepi) (by rwa [State.answered_mem]) (hlen ▸ hfits) hcut (hrest ▸ hlimit)]
  simp

/-- Settles O33: either way the DIGEST is that of the padded message. -/
theorem digestDoesNotDependOnTheSplit : Obligations.DigestDoesNotDependOnTheSplit := by
  intro c s p n q r hidle hepi hfits hread hq hqlimit hr hrlimit
  obtain ⟨bytes, hlen, hm⟩ := exists_memHolds hread
  have hlive : (s.answered c ⟨paddedHash c bytes n (algOf c).iv, .final, s.fcodeOf c⟩).live c :=
    .inr (State.phaseOf_answered ..)
  have hdigest := execAll_next (exec_digest_ok hlive) []
  exact ⟨_, rfl, (execAll_digest_of_split hidle hepi hm hlen hfits hq hqlimit).trans hdigest,
    (execAll_digest_of_split hidle hepi hm hlen hfits hr hrlimit).trans hdigest⟩

/-! ### DIGEST -/

@[simp] theorem byteImage_length {w : Nat} (words : List (BitVec w)) :
    (byteImage words).length = words.length * (w / 8) := by
  induction words with
  | nil => simp [byteImage]
  | cons x xs ih =>
    rw [show byteImage (x :: xs) = toLeBytes x ++ byteImage xs from rfl, List.length_append, toLeBytes_length, ih,
      List.length_cons, Nat.succ_mul, Nat.add_comm]

/-- The first bytes of a byte image, cut between two words, fill `RDATA` up with zeros (`30_encoding.md` R95). -/
theorem padResponse_take_byteImage {w : Nat} (words rest : List (BitVec w)) :
    padResponse ((byteImage (words ++ rest)).take (words.length * (w / 8))) =
      byteImage words ++ List.replicate (48 - words.length * (w / 8)) 0 := by
  have hsplit : byteImage (words ++ rest) = byteImage words ++ byteImage rest := by simp [byteImage]
  rw [hsplit, List.take_left' (byteImage_length words), padResponse, byteImage_length]

/-- DIGEST changes the response alone, so a second one answers the same. -/
theorem exec_digest_repeats {s : State} {c : CoreId} (hs : s.live c) {rdata : List Byte}
    (h : padResponse (digestBytes (algOf c) (s.regsOf c).h) = rdata) :
    ∃ t, exec (instrOf c .digest 0 0 0) s = .next t ∧ exec (instrOf c .digest 0 0 0) t = .next t ∧
      t = { s with rc := 0, rdata := rdata } := by
  subst h
  refine ⟨_, exec_digest_ok hs, ?_, rfl⟩
  generalize hd : padResponse _ = d
  have hregs : ({ s with rc := 0, rdata := d } : State).regsOf c = s.regsOf c := by cases c <;> rfl
  have hlive : ({ s with rc := 0, rdata := d } : State).live c := by cases c <;> exact hs
  rw [exec_digest_ok hlive, hregs, hd]

/-- Settles O35: the byte image is as long as the digest, but for SHA384, whose last two words are cut off. -/
theorem digestAnswersTheStateImage : Obligations.DigestAnswersTheStateImage := by
  intro s
  refine ⟨fun hs => exec_digest_repeats (c := .ripemd256) hs ?_, fun hs => exec_digest_repeats (c := .sha1) hs ?_,
    fun hs => exec_digest_repeats (c := .sha256) hs ?_, fun hs => exec_digest_repeats (c := .sha384) hs ?_⟩
  · exact (padResponse_take_byteImage s.ripemd256.h.toList []).trans (by simp [byteImage, Hash8.toList])
  · exact (padResponse_take_byteImage s.sha1.h.toList []).trans (by simp [byteImage, Hash5.toList])
  · exact (padResponse_take_byteImage s.sha256.h.toList []).trans (by simp [byteImage, Hash8.toList])
  · exact (padResponse_take_byteImage (s.sha384.h.toList.take 6) (s.sha384.h.toList.drop 6)).trans
      (by simp [byteImage, Hash8.toList])

/-! ### The length field -/

theorem beNat_toBeBytes {w : Nat} (hw : 8 ∣ w) (v : BitVec w) : beNat (toBeBytes v) = v.toNat := by
  rw [beNat_eq_leNat_reverse, toBeBytes_eq_reverse, List.reverse_reverse, leNat_toLeBytes hw]

/-- The first bytes of a big-endian number are its high part. -/
theorem beNat_append (a b : List Byte) : beNat (a ++ b) = beNat a * 256 ^ b.length + beNat b := by
  simp only [beNat_eq_leNat_reverse, leNat_eq_ofDigits, List.reverse_append, List.map_append, Nat.ofDigits_append,
    List.length_map, List.length_reverse]
  ring

theorem bitLengthLow_toNat (total : Word64) : (bitLengthLow total).toNat = total.toNat * 8 % 2 ^ 64 :=
  BitVec.toNat_ofNat ..

theorem bitLengthHigh_toNat (total : Word64) : (bitLengthHigh total).toNat = total.toNat / 2 ^ 61 := by
  rw [bitLengthHigh, BitVec.toNat_ushiftRight, Nat.shiftRight_eq_div_pow]

/-- Settles O39: each field is the byte form of its one or two words; for SHA384 the high word holds the product's bits
above 2^64. -/
theorem lengthFieldHoldsTheBitLength : Obligations.LengthFieldHoldsTheBitLength := by
  intro total
  have hle : leNat (toLeBytes (bitLengthLow total)) = total.toNat * 8 % 2 ^ 64 :=
    (leNat_toLeBytes (by decide) _).trans (bitLengthLow_toNat total)
  have hlow : beNat (toBeBytes (bitLengthLow total)) = total.toNat * 8 % 2 ^ 64 :=
    (beNat_toBeBytes (by decide) _).trans (bitLengthLow_toNat total)
  have hhigh : beNat (toBeBytes (bitLengthHigh total)) = total.toNat / 2 ^ 61 :=
    (beNat_toBeBytes (by decide) _).trans (bitLengthHigh_toNat total)
  have hlen : (toBeBytes (bitLengthHigh total)).length = 8 := toBeBytes_length _
  refine ⟨⟨lengthField_length .ripemd256 total, hle⟩, ⟨lengthField_length .sha1 total, hlow⟩,
    ⟨lengthField_length .sha256 total, hlow⟩, lengthField_length .sha384 total, ?_⟩
  rw [show sha384Alg.lengthField total = toBeBytes (bitLengthHigh total) ++ toBeBytes (bitLengthLow total) from rfl,
    List.take_left' hlen, List.drop_left' hlen, beNat_append, toBeBytes_length, hhigh, hlow]
  refine ⟨rfl, ?_, rfl, ?_⟩ <;> omega

/-! ### What an operation leaves of its own core -/

theorem sameHash_iff {c : CoreId} {s t : State} : SameHash c s t ↔ (t.regsOf c).h = (s.regsOf c).h := by
  cases c <;> exact Iff.rfl

section Frame

variable {α : Type} (A : Alg α) {op : Operation} (a0 a1 a2 : Word64) (v : View α)

theorem digestCommand_h : (digestCommand A v).regs.h = v.regs.h := by
  rcases digestCommand_cases A v with ⟨-, h⟩ | ⟨-, h⟩ <;> rw [h] <;> rfl

/-- The response code 0 means that the operation answered OK. -/
theorem okEffect_of_rc_zero (h : (runOperation A op a0 a1 a2 v).rc = 0) :
    OkEffect A op v (runOperation A op a0 a1 a2 v) := by
  rcases runOperation_fault_or_ok A op a0 a1 a2 v with ⟨c, -, he⟩ | ⟨-, he⟩
  · exact absurd (he.rc.symm.trans h) (causeRc_ne_zero c)
  · exact he

/-- Only FINISH writes `EPI` (`10_state.md` R31). -/
theorem runOperation_epi_of_ne_finish (hop : op ≠ .finish) : (runOperation A op a0 a1 a2 v).epi = v.epi := by
  cases op with
  | init => rcases initCommand_cases A v with ⟨-, h⟩ | ⟨-, h⟩ <;> rw [runOperation, h] <;> rfl
  | cycle =>
    rcases cycleCommand_cases A a0 a1 v with ⟨-, h⟩ | ⟨-, -, h⟩ | ⟨k, -, -, -, h⟩ | ⟨x, -, -, -, h⟩ <;>
      simp [runOperation, h]
  | finish => exact absurd rfl hop
  | digest => rcases digestCommand_cases A v with ⟨-, h⟩ | ⟨-, h⟩ <;> rw [runOperation, h] <;> rfl
  | erase => rfl

/-- Only the `ReadFault` of a CYCLE draws free values (assumption 3). -/
theorem runOperation_draws (hop : (runOperation A op a0 a1 a2 v).rc = 0 ∨ op ≠ .cycle) :
    (runOperation A op a0 a1 a2 v).draws = v.draws := by
  cases op with
  | init => rcases initCommand_cases A v with ⟨-, h⟩ | ⟨-, h⟩ <;> rw [runOperation, h] <;> rfl
  | cycle =>
    rcases cycleCommand_cases A a0 a1 v with ⟨-, h⟩ | ⟨-, -, h⟩ | ⟨k, -, -, -, h⟩ | ⟨x, -, -, -, h⟩ <;>
      rw [runOperation, h] at hop ⊢
    · rfl
    · rfl
    · exact absurd (hop.resolve_right (not_not.mpr rfl)) (causeRc_ne_zero .readFault)
    · rfl
  | finish =>
    rcases finishCommand_cases A a0 a1 a2 v with
      ⟨-, h⟩ | ⟨-, -, h⟩ | ⟨-, -, -, h⟩ | ⟨-, -, -, -, h⟩ | ⟨t, -, -, -, -, h⟩ <;> rw [runOperation, h] <;> rfl
  | digest => rcases digestCommand_cases A v with ⟨-, h⟩ | ⟨-, h⟩ <;> rw [runOperation, h] <;> rfl
  | erase => rfl

end Frame

/-- Settles O21: what the operation leaves of its view is left of the state. -/
theorem commandLeavesItsOwnCoreWhereTheSpecSaysSo : Obligations.CommandLeavesItsOwnCoreWhereTheSpecSaysSo := by
  intro i s t h
  obtain rfl := exec_next_iff.mp h
  rw [sameHash_iff, State.regsOf_putOf_same, State.phaseOf_putOf_same, State.fcodeOf_putOf_same, State.putOf_rc,
    State.putOf_epi, State.putOf_draws, ← State.regsOf_phase, ← State.regsOf_fcode, Instr.effectOn]
  refine ⟨fun hop => ?_, fun hrc hop => ?_, fun hrc hop => ?_, runOperation_epi_of_ne_finish _ _ _ _ _,
    runOperation_draws _ _ _ _ _⟩
  · rw [hop]
    exact digestCommand_h _ _
  · rw [(okEffect_of_rc_zero _ _ _ _ _ hrc).phase]
    rcases hop with hop | hop <;> rw [hop] <;> rfl
  · rw [(okEffect_of_rc_zero _ _ _ _ _ hrc).fcode, if_neg hop]
    rfl

end Sys2Proof.Machine
end

section
/-! PROOFS. The statements of `41_ripemd256.md`: the rounds of the compression function (R162 to R168), the ranges of its
tables, the worked example of FINISH and DIGEST (R171, R172). -/

namespace Sys2Proof.Machine

/-! ### The compression function -/

/-- What a value chosen by the quarter of the 64 rounds is in each quarter (R162, R163). -/
theorem eq_of_quarter {α : Type} {e a b c d : α} {j : Nat}
    (he : e = if j < 16 then a else if j < 32 then b else if j < 48 then c else d) :
    (j < 16 → e = a) ∧ (16 ≤ j → j < 32 → e = b) ∧ (32 ≤ j → j < 48 → e = c) ∧ (48 ≤ j → j < 64 → e = d) := by
  subst he
  refine ⟨fun h => if_pos h, fun h h' => ?_, fun h h' => ?_, fun h _ => ?_⟩
  · rw [if_neg (by omega), if_pos h']
  · rw [if_neg (by omega), if_neg (by omega), if_pos h']
  · rw [if_neg (by omega), if_neg (by omega), if_neg (by omega)]

theorem ripemdRounds_succ (H : Hash8 32) (X : List Word32) (n : Nat) :
    ripemdRounds H X (n + 1) = ripemdRound X (ripemdRounds H X n) n := by
  rw [ripemdRounds, List.range_succ, List.foldl_append]
  rfl

/-- Each of the four pairs of registers is exchanged after its own round (R167). -/
theorem ripemdExchange_pairs (j : Nat) (v : Hash8 32) :
    ((ripemdExchange j v).h0, (ripemdExchange j v).h4) = (if j = 15 then (v.h4, v.h0) else (v.h0, v.h4)) ∧
    ((ripemdExchange j v).h1, (ripemdExchange j v).h5) = (if j = 31 then (v.h5, v.h1) else (v.h1, v.h5)) ∧
    ((ripemdExchange j v).h2, (ripemdExchange j v).h6) = (if j = 47 then (v.h6, v.h2) else (v.h2, v.h6)) ∧
    ((ripemdExchange j v).h3, (ripemdExchange j v).h7) = (if j = 63 then (v.h7, v.h3) else (v.h3, v.h7)) := by
  by_cases h : j = 15 ∨ j = 31 ∨ j = 47 ∨ j = 63
  · rcases h with rfl | rfl | rfl | rfl <;> exact ⟨rfl, rfl, rfl, rfl⟩
  · simp only [not_or] at h
    simp [ripemdExchange, h]

/-- Settles O48: the sequences are the registers after each number of rounds. -/
theorem ripemdCompressionRounds : Obligations.RipemdCompressionRounds := by
  refine ⟨fun i x y z => eq_of_quarter rfl, fun j => ?_, fun H X => ?_⟩
  · obtain ⟨k0, k1, k2, k3⟩ := eq_of_quarter (rfl : ripemdK j = _)
    obtain ⟨kk0, kk1, kk2, kk3⟩ := eq_of_quarter (rfl : ripemdKK j = _)
    exact ⟨fun h => ⟨k0 h, kk0 h⟩, fun h h' => ⟨k1 h h', kk1 h h'⟩, fun h h' => ⟨k2 h h', kk2 h h'⟩,
      fun h h' => ⟨k3 h h', kk3 h h'⟩⟩
  · refine ⟨fun n => (ripemdRounds H X n).h0, fun n => (ripemdRounds H X n).h1, fun n => (ripemdRounds H X n).h2,
      fun n => (ripemdRounds H X n).h3, fun n => (ripemdRounds H X n).h4, fun n => (ripemdRounds H X n).h5,
      fun n => (ripemdRounds H X n).h6, fun n => (ripemdRounds H X n).h7, rfl, rfl, rfl, rfl, rfl, rfl, rfl, rfl,
      fun j _ => ?_, rfl⟩
    simp only [ripemdRounds_succ]
    exact ripemdExchange_pairs j _

/-! ### The tables -/

/-- Settles O49: the tables are closed, so each claim is computed. -/
theorem ripemdTablesAreInRange : Obligations.RipemdTablesAreInRange := by
  have hrows : ∀ row ∈ List.range 4, ∀ x ∈ List.range 16,
      x ∈ (ripemdR.drop (16 * row)).take 16 ∧ x ∈ (ripemdRR.drop (16 * row)).take 16 := by decide
  have hleft : ∀ n ∈ ripemdS, 5 ≤ n ∧ n ≤ 15 := by decide
  have hright : ∀ n ∈ ripemdSS, 5 ≤ n ∧ n ≤ 15 := by decide
  exact ⟨rfl, rfl, rfl, rfl, hrows, List.forall_mem_append.mpr ⟨hleft, hright⟩⟩

/-! ### The worked example -/

/-- The initial value after the padded message "abc" (R171). -/
theorem paddedHash_ripemd256_abc :
    paddedHash .ripemd256 [0x61, 0x62, 0x63] 3 ripemdIv =
      (⟨0x226ebdaf, 0xbb8c9d8b, 0x2dcaf5ce, 0xa1dbe603, 0x7dbcc00a, 0x0e68e4cb, 0xe9d2421e, 0x659b4575⟩ : Hash8 32) := by
  decide +kernel

/-- Settles O57: FINISH leaves the padded hash of its tail, and DIGEST answers the byte image of that. -/
theorem ripemdFinishExample : Obligations.RipemdFinishExample := by
  unfold Obligations.RipemdFinishExample
  intro s h
  have htail : MemHolds s.mem (0x1000 : Word64).toNat [0x61, 0x62, 0x63] := memHolds_of_memRead (n := 3) rfl
  refine ⟨?_, ?_⟩
  · refine (exec_finish_ok (c := .ripemd256) (size := 3) (.inl rfl) rfl htail rfl (by decide) (by decide)).trans ?_
    rw [show (s.regsOf .ripemd256).h = ripemdIv from rfl, paddedHash_ripemd256_abc]
    rfl
  · have hdigest : padResponse (digestBytes ripemd256Alg h) =
        [0xaf, 0xbd, 0x6e, 0x22, 0x8b, 0x9d, 0x8c, 0xbb, 0xce, 0xf5, 0xca, 0x2d, 0x03, 0xe6, 0xdb, 0xa1] ++
        [0x0a, 0xc0, 0xbc, 0x7d, 0xcb, 0xe4, 0x68, 0x0e, 0x1e, 0x42, 0xd2, 0xe9, 0x75, 0x45, 0x9b, 0x65] ++
        List.replicate 16 0 := by decide
    rw [← hdigest]
    exact exec_digest_ok (c := .ripemd256) (s := { s with ripemd256 := ⟨h, .final, 0⟩ }) (.inr rfl)

end Sys2Proof.Machine
end

section
/-! PROOFS. The statements of `42_sha1.md`: the schedule and the rounds of the compression function (R192 to R194), the
worked example of one compression (R195). -/

namespace Sys2Proof.Machine

/-! ### A schedule that grows by one word at a time -/

theorem some_wordAt {w : Nat} {l : List (BitVec w)} {j : Nat} (h : j < l.length) : some (wordAt l j) = l[j]? := by
  rw [wordAt, List.getD_eq_getElem _ _ h, List.getElem?_eq_getElem h]

section GrowingSchedule

variable {w : Nat} {S : Nat → List (BitVec w)} {x : Nat → BitVec w} (hS : ∀ n, S (n + 1) = S n ++ [x n])
include hS

theorem growing_length (n : Nat) : (S n).length = (S 0).length + n := by
  induction n with
  | zero => rfl
  | succ n ih => rw [hS, List.length_append, ih]; rfl

/-- A word that is in the schedule stays there as the schedule grows. -/
theorem growing_wordAt_stays {n N j : Nat} (hn : n ≤ N) (hj : j < (S 0).length + n) :
    wordAt (S N) j = wordAt (S n) j := by
  induction N, hn using Nat.le_induction with
  | base => rfl
  | succ N hN ih =>
    have hlt : j < (S N).length := by rw [growing_length hS]; omega
    rw [← ih, hS, wordAt, wordAt, List.getD_append _ _ _ _ hlt]

/-- The word that each extension appends. -/
theorem growing_wordAt_new {n N : Nat} (hn : n < N) : wordAt (S N) ((S 0).length + n) = x n := by
  rw [growing_wordAt_stays hS hn (by omega), hS, ← growing_length hS, wordAt,
    List.getD_append_right _ _ _ _ (Nat.le_refl _), Nat.sub_self]
  rfl

end GrowingSchedule

/-! ### The compression function -/

/-- The recurrence of the schedule, all words taken from the finished one (R192). -/
theorem wordAt_sha1Schedule {X : List Word32} (hX : X.length = 16) {N j : Nat} (h16 : 16 ≤ j) (hj : j < 16 + N) :
    wordAt (sha1Schedule X N) j =
      rotl (wordAt (sha1Schedule X N) (j - 3) ^^^ wordAt (sha1Schedule X N) (j - 8) ^^^
        wordAt (sha1Schedule X N) (j - 14) ^^^ wordAt (sha1Schedule X N) (j - 16)) 1 := by
  have hS : ∀ n, sha1Schedule X (n + 1) = sha1Schedule X n ++ [_] := fun _ => rfl
  obtain ⟨n, rfl⟩ := Nat.exists_eq_add_of_le h16
  have hlen : (sha1Schedule X n).length = 16 + n := (growing_length hS n).trans (by rw [sha1Schedule, hX])
  have hstays : ∀ k, 0 < k → wordAt (sha1Schedule X N) (16 + n - k) = wordAt (sha1Schedule X n) (16 + n - k) :=
    fun k hk => growing_wordAt_stays hS (by omega) (by rw [sha1Schedule, hX]; omega)
  have hnew := growing_wordAt_new hS (n := n) (N := N) (by omega)
  rw [sha1Schedule, hX, hlen] at hnew
  rw [hnew, hstays 3 (by decide), hstays 8 (by decide), hstays 14 (by decide), hstays 16 (by decide)]

/-- The function and the constant of a round in each regime of 20 rounds (R193). -/
theorem sha1_regimes (t : Nat) (x y z : Word32) :
    (t < 20 → sha1F t x y z = (x &&& y) ||| (~~~x &&& z) ∧ sha1K t = 0x5A827999) ∧
    (20 ≤ t → t < 40 → sha1F t x y z = x ^^^ y ^^^ z ∧ sha1K t = 0x6ED9EBA1) ∧
    (40 ≤ t → t < 60 → sha1F t x y z = (x &&& y) ||| (x &&& z) ||| (y &&& z) ∧ sha1K t = 0x8F1BBCDC) ∧
    (60 ≤ t → sha1F t x y z = x ^^^ y ^^^ z ∧ sha1K t = 0xCA62C1D6) := by
  refine ⟨fun h => ?_, fun h h' => ?_, fun h h' => ?_, fun h => ?_⟩ <;>
    simp (disch := omega) only [sha1F, sha1K, if_pos, if_neg, and_self]

theorem sha1Rounds_succ (H : Hash5 32) (X : List Word32) (n : Nat) :
    sha1Rounds H X (n + 1) = sha1Round (sha1Schedule X 64) (sha1Rounds H X n) n := by
  rw [sha1Rounds, List.range_succ, List.foldl_append]
  rfl

theorem sha1Round_h0 {W : List Word32} {v : Hash5 32} {t : Nat} {f k : Word32}
    (h : sha1F t v.h1 v.h2 v.h3 = f ∧ sha1K t = k) :
    (sha1Round W v t).h0 = rotl v.h0 5 + f + v.h4 + k + wordAt W t := by
  obtain ⟨hf, hk⟩ := h
  rw [← hf, ← hk]
  rfl

/-- Settles O50: `W` is the finished schedule, and the sequences are the registers after each number of rounds. -/
theorem sha1CompressionRounds : Obligations.Sha1CompressionRounds := by
  intro H X hX
  refine ⟨wordAt (sha1Schedule X 64), fun n => (sha1Rounds H X n).h0, fun n => (sha1Rounds H X n).h1,
    fun n => (sha1Rounds H X n).h2, fun n => (sha1Rounds H X n).h3, fun n => (sha1Rounds H X n).h4,
    fun j hj => ?_, fun j h16 h80 => wordAt_sha1Schedule hX h16 h80, rfl, rfl, rfl, rfl, rfl, fun t _ => ?_, rfl⟩
  · have hj : j < X.length := hX ▸ hj
    rw [growing_wordAt_stays (S := sha1Schedule X) (fun _ => rfl) (Nat.zero_le 64) hj]
    exact some_wordAt hj
  · obtain ⟨hchoice, hparity, hmajority, hparity'⟩ :=
      sha1_regimes t (sha1Rounds H X t).h1 (sha1Rounds H X t).h2 (sha1Rounds H X t).h3
    simp only [sha1Rounds_succ]
    exact ⟨fun h => sha1Round_h0 (hchoice h), fun h h' => sha1Round_h0 (hparity h h'),
      fun h h' => sha1Round_h0 (hmajority h h'), fun h => sha1Round_h0 (hparity' h), rfl, rfl, rfl, rfl⟩

/-! ### The worked example -/

/-- The words of the padded message "abc" (R195; `43_sha256.md` R217). -/
theorem blockWords_abcBlock32 :
    blockWords (beWord 32) abcBlock32 = [0x61626380, 0, 0, 0, 0, 0, 0, 0, 0, 0, 0, 0, 0, 0, 0, 0x00000018] := by
  decide

/-- The initial value after the padded message "abc" (R195). -/
theorem compressSha1_abc :
    compressSha1 sha1Iv [0x61626380, 0, 0, 0, 0, 0, 0, 0, 0, 0, 0, 0, 0, 0, 0, 0x00000018] =
      ⟨0xa9993e36, 0x4706816a, 0xba3e2571, 0x7850c26c, 0x9cd0d89d⟩ := by
  decide +kernel

/-- Settles O54: the words after the block words do not change `W[16]` again, and the rest is computed. -/
theorem sha1WorkedExample : Obligations.Sha1WorkedExample := by
  unfold Obligations.Sha1WorkedExample
  rw [blockWords_abcBlock32]
  refine ⟨rfl, ?_, ?_, compressSha1_abc⟩
  · exact growing_wordAt_new (S := sha1Schedule _) (fun _ => rfl) (n := 0) (by decide : 0 < 64)
  · decide +kernel

end Sys2Proof.Machine
end

section
/-! PROOFS. The statements of `43_sha256.md`: the schedule and the rounds of the compression function (R213 to R216), the
origin of the SHA-2 constants (R211, R212; `44_sha384.md` R231, R232), the worked example of one compression (R217). -/

namespace Sys2Proof.Machine

/-! ### The compression function -/

section Sha2Core

variable {w : Nat} (P : Sha2 w)

/-- A block word stays in the schedule (R214, R234). -/
theorem some_wordAt_sha2Schedule {X : List (BitVec w)} (N : Nat) {t : Nat} (ht : t < X.length) :
    some (wordAt (sha2Schedule P X N) t) = X[t]? := by
  rw [growing_wordAt_stays (S := sha2Schedule P X) (fun _ => rfl) (Nat.zero_le N) ht]
  exact some_wordAt ht

/-- The recurrence of the schedule, all words taken from the finished one (R214, R234). -/
theorem wordAt_sha2Schedule {X : List (BitVec w)} (hX : X.length = 16) {N t : Nat} (h16 : 16 ≤ t) (ht : t < 16 + N) :
    wordAt (sha2Schedule P X N) t =
      P.ssig1 (wordAt (sha2Schedule P X N) (t - 2)) + wordAt (sha2Schedule P X N) (t - 7) +
        P.ssig0 (wordAt (sha2Schedule P X N) (t - 15)) + wordAt (sha2Schedule P X N) (t - 16) := by
  have hS : ∀ n, sha2Schedule P X (n + 1) = sha2Schedule P X n ++ [_] := fun _ => rfl
  obtain ⟨n, rfl⟩ := Nat.exists_eq_add_of_le h16
  have hlen : (sha2Schedule P X n).length = 16 + n := (growing_length hS n).trans (by rw [sha2Schedule, hX])
  have hstays : ∀ k, 0 < k → wordAt (sha2Schedule P X N) (16 + n - k) = wordAt (sha2Schedule P X n) (16 + n - k) :=
    fun k hk => growing_wordAt_stays hS (by omega) (by rw [sha2Schedule, hX]; omega)
  have hnew := growing_wordAt_new hS (n := n) (N := N) (by omega)
  rw [sha2Schedule, hX, hlen] at hnew
  rw [hnew, hstays 2 (by decide), hstays 7 (by decide), hstays 15 (by decide), hstays 16 (by decide)]

theorem sha2Rounds_succ (H : Hash8 w) (X : List (BitVec w)) (n : Nat) :
    sha2Rounds P H X (n + 1) = sha2Round P (sha2Schedule P X (P.k.length - 16)) (sha2Rounds P H X n) n := by
  rw [sha2Rounds, List.range_succ, List.foldl_append]
  rfl

end Sha2Core

/-- Settles O51: `W` is the finished schedule, and the sequences are the registers after each number of rounds. -/
theorem sha256CompressionRounds : Obligations.Sha256CompressionRounds := by
  intro H X hX
  refine ⟨wordAt (sha2Schedule sha256Params X 48), fun n => (sha2Rounds sha256Params H X n).h0,
    fun n => (sha2Rounds sha256Params H X n).h1, fun n => (sha2Rounds sha256Params H X n).h2,
    fun n => (sha2Rounds sha256Params H X n).h3, fun n => (sha2Rounds sha256Params H X n).h4,
    fun n => (sha2Rounds sha256Params H X n).h5, fun n => (sha2Rounds sha256Params H X n).h6,
    fun n => (sha2Rounds sha256Params H X n).h7, fun t ht => some_wordAt_sha2Schedule _ 48 (hX ▸ ht),
    fun t h16 h64 => wordAt_sha2Schedule _ hX h16 h64, rfl, rfl, rfl, rfl, rfl, rfl, rfl, rfl, fun t _ => ?_, rfl⟩
  simp only [sha2Rounds_succ]
  exact ⟨rfl, rfl, rfl, rfl, rfl, rfl, rfl, rfl⟩

/-! ### The constants

`RootFraction` looks for the whole part of the root below 8: the cube root of 409 and the square root of 53, the largest
primes here, are between 7 and 8. -/

theorem sha256K_cubeRoots :
    ∀ t ∈ List.range 64, RootFraction 3 32 (firstPrimes.getD t 0) (sha256K.getD t 0).toNat := by
  decide +kernel

theorem sha384K_cubeRoots :
    ∀ t ∈ List.range 80, RootFraction 3 64 (firstPrimes.getD t 0) (sha384K.getD t 0).toNat := by
  decide +kernel

theorem sha256Iv_squareRoots :
    ∀ i ∈ List.range 8, RootFraction 2 32 (firstPrimes.getD i 0) (sha256Iv.toList.getD i 0).toNat := by
  decide +kernel

theorem sha384Iv_squareRoots :
    ∀ i ∈ List.range 8, RootFraction 2 64 (firstPrimes.getD (8 + i) 0) (sha384Iv.toList.getD i 0).toNat := by
  decide +kernel

/-- Settles O53: the tables are closed, so the roots of each are computed. -/
theorem sha2ConstantsAreRootFractions : Obligations.Sha2ConstantsAreRootFractions :=
  ⟨rfl, rfl, sha256K_cubeRoots, sha384K_cubeRoots, sha256Iv_squareRoots, sha384Iv_squareRoots, rfl, rfl⟩

/-! ### The worked example -/

/-- The registers after the 64 rounds over the padded message "abc" (R217). -/
theorem sha2Rounds_sha256_abc :
    sha2Rounds sha256Params sha256Iv [0x61626380, 0, 0, 0, 0, 0, 0, 0, 0, 0, 0, 0, 0, 0, 0, 0x00000018] 64 =
      ⟨0x506e3058, 0xd39a2165, 0x04d24d6c, 0xb85e2ce9, 0x5ef50f24, 0xfb121210, 0x948d25b6, 0x961f4894⟩ := by
  decide +kernel

/-- Settles O55: the words after `W[16]` and `W[17]` do not change them again, and the HashState is the sum of the initial
value and the registers after the 64 rounds. -/
theorem sha256WorkedExample : Obligations.Sha256WorkedExample := by
  unfold Obligations.Sha256WorkedExample
  rw [blockWords_abcBlock32, compressSha256, sha2Rounds_sha256_abc]
  have hS : ∀ X n, sha2Schedule sha256Params X (n + 1) = sha2Schedule sha256Params X n ++ [_] := fun _ _ => rfl
  refine ⟨rfl, ?_, ?_, ?_, rfl, by decide⟩
  · exact growing_wordAt_new (hS _) (n := 0) (by decide : 0 < 48)
  · exact growing_wordAt_new (hS _) (n := 1) (by decide : 1 < 48)
  · decide +kernel

end Sys2Proof.Machine
end

section
/-! PROOFS. The statements of `44_sha384.md`: the schedule and the rounds of the compression function (R233 to R236), the
worked example of one compression (R237). -/

namespace Sys2Proof.Machine

/-! ### The compression function -/

/-- Settles O52: `W` is the finished schedule, and the sequences are the registers after each number of rounds. -/
theorem sha384CompressionRounds : Obligations.Sha384CompressionRounds := by
  intro H X hX
  refine ⟨wordAt (sha2Schedule sha384Params X 64), fun n => (sha2Rounds sha384Params H X n).h0,
    fun n => (sha2Rounds sha384Params H X n).h1, fun n => (sha2Rounds sha384Params H X n).h2,
    fun n => (sha2Rounds sha384Params H X n).h3, fun n => (sha2Rounds sha384Params H X n).h4,
    fun n => (sha2Rounds sha384Params H X n).h5, fun n => (sha2Rounds sha384Params H X n).h6,
    fun n => (sha2Rounds sha384Params H X n).h7, fun t ht => some_wordAt_sha2Schedule _ 64 (hX ▸ ht),
    fun t h16 h80 => wordAt_sha2Schedule _ hX h16 h80, rfl, rfl, rfl, rfl, rfl, rfl, rfl, rfl, fun t _ => ?_, rfl⟩
  simp only [sha2Rounds_succ]
  exact ⟨rfl, rfl, rfl, rfl, rfl, rfl, rfl, rfl⟩

/-! ### The worked example -/

/-- The words of the padded message "abc" (R237). -/
theorem blockWords_abcBlock64 :
    blockWords (beWord 64) abcBlock64 =
      [0x6162638000000000, 0, 0, 0, 0, 0, 0, 0, 0, 0, 0, 0, 0, 0, 0, 0x0000000000000018] := by
  decide

/-- The initial value after the padded message "abc" (R237). -/
theorem compressSha384_abc :
    compressSha384 sha384Iv [0x6162638000000000, 0, 0, 0, 0, 0, 0, 0, 0, 0, 0, 0, 0, 0, 0, 0x0000000000000018] =
      ⟨0xcb00753f45a35e8b, 0xb5a03d699ac65007, 0x272c32ab0eded163, 0x1a8b605a43ff5bed,
        0x8086072ba1e7cc23, 0x58baeca134c825a7, 0xa303edfdf3b89cd7, 0x0c66918ece57ba15⟩ := by
  decide +kernel

/-- Settles O56: the words after `W[16]` and `W[17]` do not change them again, and the rest is computed. -/
theorem sha384WorkedExample : Obligations.Sha384WorkedExample := by
  unfold Obligations.Sha384WorkedExample
  rw [blockWords_abcBlock64]
  have hS : ∀ X n, sha2Schedule sha384Params X (n + 1) = sha2Schedule sha384Params X n ++ [_] := fun _ _ => rfl
  refine ⟨rfl, ?_, ?_, ?_, compressSha384_abc⟩
  · exact growing_wordAt_new (hS _) (n := 0) (by decide : 0 < 64)
  · exact growing_wordAt_new (hS _) (n := 1) (by decide : 1 < 64)
  · decide +kernel

end Sys2Proof.Machine
end

section
/-! PROOFS. The statements of `45_eraser.md`: the ERASE command (R252), the epilogue wipe (R254). -/

namespace Sys2Proof.Machine

/-! ### ERASE -/

/-- ERASE answers OK with its core cleared, whatever the phase (R252). -/
theorem exec_erase (c : CoreId) (s : State) :
    exec (instrOf c .erase 0 0 0) s = .next (s.answered c (.cleared (algOf c).zero)) := by
  rw [exec_instrOf]
  rfl

/-- Settles O40: the cleared registers of each core written out. -/
theorem eraseZeroesTheCoreInEveryPhase : Obligations.EraseZeroesTheCoreInEveryPhase := by
  intro s
  exact ⟨exec_erase .ripemd256 s, exec_erase .sha1 s, exec_erase .sha256 s, exec_erase .sha384 s⟩

/-! ### The epilogue wipe -/

/-- FINISH starts exactly on a live core (`40_sequencer.md` R120). -/
theorem admits_finish_iff_live {s : State} {c : CoreId} : admits .finish (s.phaseOf c) = true ↔ s.live c := by
  refine ⟨?_, fun h => admits_of_live h nofun⟩
  rw [State.live]
  cases s.phaseOf c <;> decide

section Finish

variable {α : Type} (A : Alg α) (tail size total : Word64) {v : View α}

/-- A FINISH that starts wipes `EPI` at each of its four exits. -/
theorem finishCommand_epi_of_admits (h : admits .finish v.regs.phase = true) :
    (finishCommand A tail size total v).epi = List.replicate 256 0 := by
  rcases finishCommand_cases A tail size total v with
    ⟨hp, -⟩ | ⟨-, -, he⟩ | ⟨-, -, -, he⟩ | ⟨-, -, -, -, he⟩ | ⟨t, -, -, -, -, he⟩
  · exact absurd h (by simp [hp])
  · rw [he, raise_epi, wiped_epi]
  · rw [he, raise_epi, wiped_epi]
  · rw [he, raise_epi, wiped_epi]
  · rw [he]
    rfl

/-- A FINISH refused by the phase test raises `BadPhase` and nothing else. -/
theorem finishCommand_of_not_admits (h : ¬ admits .finish v.regs.phase = true) :
    finishCommand A tail size total v = raise .badPhase v := by
  rw [finishCommand, if_neg h]

end Finish

/-- Settles O31: the phase test of FINISH is that its core is live. -/
theorem finishAlwaysWipesEpilogue : Obligations.FinishAlwaysWipesEpilogue := by
  intro c p size total s
  have hadm : admits .finish (s.viewOf c).regs.phase = true ↔ s.live c := by
    rw [State.viewOf_regs, State.regsOf_phase, admits_finish_iff_live]
  refine ⟨_, exec_instrOf c .finish p size total s, fun hlive => ?_, fun hlive => ?_⟩
  · rw [State.putOf_epi, runOperation, finishCommand_epi_of_admits _ _ _ _ (hadm.mpr hlive)]
  · rw [State.putOf_rc, State.putOf_epi, runOperation, finishCommand_of_not_admits _ _ _ _ (mt hadm.mp hlive)]
    exact ⟨rfl, rfl⟩

end Sys2Proof.Machine
end

section
/-! PROOFS. The statement of `46_streaming_engine.md`: the pseudo-instruction HASH (R261). -/

namespace Sys2Proof.Machine

/-! ### The commands of HASH -/

@[simp] theorem blockBytes_eq_blockSizeOf (c : CoreId) : blockBytes c = blockSizeOf c := by
  cases c <;> rfl

/-- HASH in terms of the spec's `BS` (R261). -/
theorem hashCommands_eq (c : CoreId) (p len : Word64) :
    hashCommands c p len =
      [instrOf c .init 0 0 0, instrOf c .cycle p (BitVec.ofNat 64 (len.toNat / blockSizeOf c)) 0,
        instrOf c .finish (p + BitVec.ofNat 64 (len.toNat / blockSizeOf c * blockSizeOf c))
          (BitVec.ofNat 64 (len.toNat % blockSizeOf c)) len,
        instrOf c .digest 0 0 0, instrOf c .erase 0 0 0] := by
  rw [hashCommands, blockBytes_eq_blockSizeOf]

/-- FINISH accepts any tail shorter than a block. -/
theorem blockSizeOf_le_tailLimitOf (c : CoreId) : blockSizeOf c ≤ tailLimitOf c := by
  cases c <;> decide

/-- A number no greater than an operand fits the operand's width. -/
theorem toNat_ofNat_of_le {k : Nat} {n : Word64} (h : k ≤ n.toNat) : (BitVec.ofNat 64 k).toNat = k := by
  rw [BitVec.toNat_ofNat, Nat.mod_eq_of_lt (h.trans_lt n.isLt)]

/-! ### From INIT to FINISH -/

/-- What INIT leaves is a live core (`40_sequencer.md` R121). -/
theorem live_after_init (s : State) (c : CoreId) :
    (s.answered c ⟨(algOf c).iv, .active, s.fcodeOf c⟩).live c :=
  .inl (State.phaseOf_answered ..)

section Hash

variable {c : CoreId} {s : State} {p n : Word64} {bytes : List Byte} (hidle : s.phaseOf c = .idle)
  (hepi : s.epi = List.replicate 256 0) (hm : MemHolds s.mem p.toNat bytes) (hlen : bytes.length = n.toNat)
  (hfits : p.toNat + n.toNat ≤ 2 ^ 64)
include hidle hepi hm hlen hfits

/-- INIT, CYCLE of the whole blocks and FINISH of the rest leave the hash of the padded message (R261). -/
theorem execAll_init_cycle_finish (is : List Instr) :
    execAll (instrOf c .init 0 0 0 :: instrOf c .cycle p (BitVec.ofNat 64 (n.toNat / blockSizeOf c)) 0 ::
        instrOf c .finish (p + BitVec.ofNat 64 (n.toNat / blockSizeOf c * blockSizeOf c))
          (BitVec.ofNat 64 (n.toNat % blockSizeOf c)) n :: is) s =
      execAll is (s.answered c ⟨paddedHash c bytes n (algOf c).iv, .final, s.fcodeOf c⟩) := by
  have hq := toNat_ofNat_of_le (Nat.div_le_self n.toNat (blockSizeOf c))
  have hr := toNat_ofNat_of_le (Nat.mod_le n.toNat (blockSizeOf c))
  have hcut : bytes.length = (BitVec.ofNat 64 (n.toNat / blockSizeOf c)).toNat * blockSizeOf c +
      (BitVec.ofNat 64 (n.toNat % blockSizeOf c)).toNat := by
    rw [hq, hr, hlen, Nat.div_add_mod']
  have hlimit : (BitVec.ofNat 64 (n.toNat % blockSizeOf c)).toNat ≤ tailLimitOf c := by
    rw [hr]
    exact (Nat.mod_lt _ (blockSizeOf_pos c)).le.trans (blockSizeOf_le_tailLimitOf c)
  have hrun := execAll_cycle_finish (live_after_init s c) (total := n) ((State.answered_epi ..).trans hepi)
    (by rwa [State.answered_mem]) (hlen ▸ hfits) hcut hlimit is
  rw [hq] at hrun
  rw [execAll_next (exec_init_idle hidle), hrun]
  simp

/-- A message that FINISH accepts as one tail needs no CYCLE (R261, `40_sequencer.md` R137). -/
theorem execAll_init_finish (hlimit : n.toNat ≤ tailLimitOf c) (is : List Instr) :
    execAll (instrOf c .init 0 0 0 :: instrOf c .finish p n n :: is) s =
      execAll is (s.answered c ⟨paddedHash c bytes n (algOf c).iv, .final, s.fcodeOf c⟩) := by
  rw [execAll_next (exec_init_idle hidle), execAll_next (exec_finish_ok (live_after_init s c)
    ((State.answered_epi ..).trans hepi) (by rwa [State.answered_mem]) hlen hfits hlimit)]
  simp

end Hash

/-- Settles O34: with CYCLE or without, FINISH leaves the hash of the padded message for DIGEST and ERASE. -/
theorem hashPseudoInstruction : Obligations.HashPseudoInstruction := by
  intro c s p len hidle hepi hfits hread
  obtain ⟨bytes, hlen, hm⟩ := exists_memHolds hread
  have hlive : (s.answered c ⟨paddedHash c bytes len (algOf c).iv, .final, s.fcodeOf c⟩).live c :=
    .inr (State.phaseOf_answered ..)
  have digest := execAll_next (exec_digest_ok hlive)
  have erase (u : State) : execAll [instrOf c .erase 0 0 0] u = some (u.answered c (.cleared (algOf c).zero)) :=
    execAll_next (exec_erase c u) []
  have hash (is : List Instr) :=
    (execAll_init_cycle_finish hidle hepi hm hlen hfits (instrOf c .digest 0 0 0 :: is)).trans (digest is)
  have short (hlimit : len.toNat ≤ tailLimitOf c) (is : List Instr) :=
    (execAll_init_finish hidle hepi hm hlen hfits hlimit (instrOf c .digest 0 0 0 :: is)).trans (digest is)
  rw [hashCommands_eq]
  exact ⟨rfl, _, _, hash [], rfl, (hash _).trans (erase _), State.answered_rc ..,
    clearedCore_iff.mpr (State.regsOf_answered ..),
    fun h => short (h.le.trans (blockSizeOf_le_tailLimitOf c)) [],
    fun h => ⟨short h [], (short h _).trans (erase _)⟩⟩

end Sys2Proof.Machine
end

section
/-! PROOFS. The statements of `60_exceptions.md`: the idle block (R278), a FAULTED core (R275), the order of the faults
(R272), what a fault leaves (R273) and the ways out of FAULTED (R274). -/

namespace Sys2Proof.Machine

/-- Settles O10: with an empty inbox the step answers the state it was given. -/
theorem idleBlockHoldsItsState : Obligations.IdleBlockHoldsItsState :=
  fun _ => step_idle

/-! ### The phase test refuses -/

/-- The phase test comes first, so a command it refuses raises `BadPhase` and does nothing else (`40_sequencer.md` R120). -/
theorem runOperation_of_not_admits {α : Type} (A : Alg α) {op : Operation} (a0 a1 a2 : Word64) {v : View α}
    (h : admits op v.regs.phase = false) : runOperation A op a0 a1 a2 v = raise .badPhase v := by
  have hneg : ¬ admits op v.regs.phase = true := by simp [h]
  cases op with
  | init => rw [runOperation, initCommand, if_neg hneg]
  | cycle => rw [runOperation, cycleCommand, if_neg hneg]
  | finish => rw [runOperation, finishCommand, if_neg hneg]
  | digest => rw [runOperation, digestCommand, if_neg hneg]
  | erase => exact absurd rfl hneg

theorem exec_of_not_admits {i : Instr} {s : State} (h : admits i.operation (s.phaseOf i.coreId) = false) :
    exec i s = .next (s.putOf i.coreId (raise .badPhase (s.viewOf i.coreId))) := by
  rw [exec_eq_next, Instr.effectOn, runOperation_of_not_admits _ _ _ _ (by simpa using h)]

/-- In FAULTED only ERASE passes the phase test (`60_exceptions.md` R275). -/
theorem admits_faulted {op : Operation} (h : op ≠ .erase) : admits op .faulted = false := by
  revert h
  cases op <;> decide

/-- A fault on a FAULTED core leaves its registers as they are: the first code stays latched (R275). -/
theorem raise_regs_of_faulted {α : Type} (c : Cause) {v : View α} (h : v.regs.phase = .faulted) :
    (raise c v).regs = v.regs := by
  rw [raise, h, fcodeAfter_faulted, ← h]

/-- An effect that keeps the core, `EPI` and the count of free values changes the response alone. -/
theorem State.putOf_response (s : State) (c : CoreId) (rc : BitVec 8) (rdata : List Byte) :
    s.putOf c ⟨s.regsOf c, s.epi, s.draws, rc, rdata⟩ = { s with rc := rc, rdata := rdata } := by
  cases c <;> rfl

theorem State.putOf_raise_of_faulted {s : State} {c : CoreId} (h : s.phaseOf c = .faulted) (k : Cause) :
    s.putOf c (raise k (s.viewOf c)) = { s with rc := causeRc k, rdata := noData } := by
  have hregs : (raise k (s.viewOf c)).regs = s.regsOf c := raise_regs_of_faulted k (by simpa using h)
  rw [← State.putOf_response s c, ← hregs]
  rfl

/-- Settles O41: the phase test refuses, and the fault finds its core FAULTED already. -/
theorem faultedCoreRefusesAllButErase : Obligations.FaultedCoreRefusesAllButErase := by
  intro i s hop hs
  rw [exec_of_not_admits (by rw [hs, admits_faulted hop]), State.putOf_raise_of_faulted hs]
  rfl

/-! ### The order of the faults -/

theorem exec_next_unique {i : Instr} {s t u : State} (ht : exec i s = .next t) (hu : exec i s = .next u) : t = u :=
  Host.Outcome.next.inj (ht.symm.trans hu)

section Trapped

variable (s : State) (c : CoreId) (k : Cause) (h : HashOf c) (d : Nat)

@[simp] theorem State.trapped_rc : (s.trapped c k h d).rc = causeRc k := by simp [State.trapped]

@[simp] theorem State.regsOf_trapped : (s.trapped c k h d).regsOf c = ⟨h, .faulted, causeCode k⟩ := by
  simp [State.trapped]

end Trapped

/-- The answer of a command that traps is the code of its fault (`60_exceptions.md` R273). -/
theorem rc_of_trapped {i : Instr} {s u t : State} {c : CoreId} {k : Cause} {x : HashOf c} {d : Nat}
    (ht : exec i s = .next t) (hu : exec i s = .next (u.trapped c k x d)) : t.rc = causeRc k := by
  rw [exec_next_unique ht hu, State.trapped_rc]

/-- INIT and ERASE apart, the phase test asks for a live core (`60_exceptions.md` R271). -/
theorem not_admits_of_not_live {s : State} {c : CoreId} (h : ¬ s.live c) {op : Operation} (hinit : op ≠ .init)
    (herase : op ≠ .erase) : admits op (s.phaseOf c) = false := by
  revert h hinit herase
  rw [State.live]
  cases op <;> cases s.phaseOf c <;> decide

/-- `BadPhase` comes before every other fault of a decoded command (R272). -/
theorem rc_of_not_admits {c : CoreId} {op : Operation} {a0 a1 a2 : Word64} {s t : State}
    (ht : exec (instrOf c op a0 a1 a2) s = .next t) (h : admits op (s.phaseOf c) = false) : t.rc = 2 := by
  rw [exec_next_unique ht (exec_of_not_admits (by simpa using h)), State.putOf_rc]
  rfl

theorem exec_init_rc {c : CoreId} {a0 a1 a2 : Word64} {s t : State}
    (ht : exec (instrOf c .init a0 a1 a2) s = .next t) :
    (s.phaseOf c ≠ .idle → t.rc = 2) ∧ (s.phaseOf c = .idle → t.rc = 0) := by
  refine ⟨fun h => rc_of_not_admits ht (by simpa using mt admits_init_iff.mp h), fun h => ?_⟩
  rw [instrOf_congr_of_no_operand (.inl rfl) c a0 a1 a2 0 0 0] at ht
  rw [exec_next_unique ht (exec_init_idle h), State.answered_rc]

theorem exec_digest_rc {c : CoreId} {a0 a1 a2 : Word64} {s t : State}
    (ht : exec (instrOf c .digest a0 a1 a2) s = .next t) :
    (¬ s.live c → t.rc = 2) ∧ (s.live c → t.rc = 0) := by
  refine ⟨fun h => rc_of_not_admits ht (not_admits_of_not_live h nofun nofun), fun h => ?_⟩
  rw [instrOf_congr_of_no_operand (.inr (.inl rfl)) c a0 a1 a2 0 0 0] at ht
  rw [exec_next_unique ht (exec_digest_ok h)]

/-- CYCLE: the phase first, then the range, then the readability of its bytes, block 0 before the later ones (R272). -/
theorem exec_cycle_rc {c : CoreId} {a0 a1 a2 : Word64} {s t : State}
    (ht : exec (instrOf c .cycle a0 a1 a2) s = .next t) :
    (¬ s.live c → t.rc = 2) ∧
    (s.live c → 2 ^ 64 < a0.toNat + a1.toNat * blockSizeOf c → t.rc = 4) ∧
    (s.live c → a0.toNat + a1.toNat * blockSizeOf c ≤ 2 ^ 64 →
      SomeUnreadable s.mem a0.toNat (a1.toNat * blockSizeOf c) →
      t.rc = 5 ∧ (SomeUnreadable s.mem a0.toNat (blockSizeOf c) → SameHash c s t)) ∧
    (s.live c → a0.toNat + a1.toNat * blockSizeOf c ≤ 2 ^ 64 →
      ¬ SomeUnreadable s.mem a0.toNat (a1.toNat * blockSizeOf c) → t.rc = 0) := by
  refine ⟨fun h => rc_of_not_admits ht (not_admits_of_not_live h nofun nofun), ?_⟩
  rw [instrOf_cycle_congr c a0 a1 a2 0] at ht
  refine ⟨fun hs hr => rc_of_trapped ht (exec_cycle_addrRange hs hr),
    fun hs hfits hu => ⟨?_, fun hfirst => ?_⟩, fun hs hfits hu => ?_⟩
  · obtain ⟨x, d, hx⟩ := exec_cycle_readFault_somewhere hs hfits hu
    exact rc_of_trapped ht hx
  · have hn : 0 < a1.toNat := by
      obtain ⟨j, hj, -⟩ := hu
      exact Nat.pos_of_mul_pos_right (Nat.zero_lt_of_lt hj)
    rw [exec_next_unique ht (exec_cycle_readFault_first hs hfits hn hfirst), sameHash_iff, State.regsOf_trapped]
  · obtain ⟨bytes, hlen, hm⟩ := exists_memHolds hu
    rw [exec_next_unique ht (exec_cycle_ok hs hm hfits hlen), State.answered_rc]

/-- FINISH of a live core over a readable tail answers OK, whatever `EPI` holds. -/
theorem exec_finish_rc_ok {c : CoreId} {a0 a1 a2 : Word64} {s t : State} (hs : s.live c)
    (ht : exec (instrOf c .finish a0 a1 a2) s = .next t) (hlimit : a1.toNat ≤ tailLimitOf c)
    (hfits : a0.toNat + a1.toNat ≤ 2 ^ 64) (hu : ¬ SomeUnreadable s.mem a0.toNat a1.toNat) : t.rc = 0 := by
  obtain ⟨tail, htail⟩ := Option.ne_none_iff_exists'.mp (mt memRead_eq_none_iff.mp hu)
  have hfits' : rangeFits a0.toNat a1.toNat = true := decide_eq_true hfits
  rw [exec_next_unique ht (exec_instrOf ..), State.putOf_rc, runOperation, finishCommand,
    if_pos (admits_viewOf hs (op := .finish) nofun), if_neg (by simpa using hlimit), hfits', State.viewOf_mem, htail]
  rfl

/-- FINISH: the phase first, then the tail's size, its range and the readability of its bytes (R272). -/
theorem exec_finish_rc {c : CoreId} {a0 a1 a2 : Word64} {s t : State}
    (ht : exec (instrOf c .finish a0 a1 a2) s = .next t) :
    (¬ s.live c → t.rc = 2) ∧
    (s.live c → tailLimitOf c < a1.toNat → t.rc = 3) ∧
    (s.live c → a1.toNat ≤ tailLimitOf c → 2 ^ 64 < a0.toNat + a1.toNat → t.rc = 4) ∧
    (s.live c → a1.toNat ≤ tailLimitOf c → a0.toNat + a1.toNat ≤ 2 ^ 64 → SomeUnreadable s.mem a0.toNat a1.toNat →
      t.rc = 5) ∧
    (s.live c → a1.toNat ≤ tailLimitOf c → a0.toNat + a1.toNat ≤ 2 ^ 64 →
      ¬ SomeUnreadable s.mem a0.toNat a1.toNat → t.rc = 0) := by
  exact ⟨fun h => rc_of_not_admits ht (not_admits_of_not_live h nofun nofun),
    fun hs hlimit => rc_of_trapped ht (exec_finish_tailTooLong hs a2 hlimit),
    fun hs hlimit hr => rc_of_trapped ht (exec_finish_addrRange hs a2 hlimit hr),
    fun hs hlimit hfits hu => rc_of_trapped ht (exec_finish_readFault hs a2 hlimit hfits hu),
    fun hs => exec_finish_rc_ok hs ht⟩

/-- Settles O43: the phase test of each operation, then the operand tests of CYCLE and FINISH on a live core. -/
theorem oneFaultInPriorityOrder : Obligations.OneFaultInPriorityOrder := by
  refine ⟨fun s c rest hin ⟨e, he⟩ => ⟨_, undecodable_step hin he, rfl⟩, fun c a0 a1 a2 s => ?_⟩
  have run (op : Operation) := exec_instrOf c op a0 a1 a2 s
  exact ⟨⟨_, run .erase, State.putOf_rc ..⟩, ⟨_, run .init, exec_init_rc (run .init)⟩,
    ⟨_, run .digest, exec_digest_rc (run .digest)⟩, ⟨_, run .cycle, exec_cycle_rc (run .cycle)⟩,
    ⟨_, run .finish, exec_finish_rc (run .finish)⟩⟩

/-! ### What a fault leaves -/

section FaultEntry

variable {α : Type} (A : Alg α) {op : Operation} {a0 a1 a2 : Word64} {v : View α}

/-- `BadPhase` is the answer exactly of the phase test (`60_exceptions.md` R271). -/
theorem runOperation_rc_eq_two_iff :
    (runOperation A op a0 a1 a2 v).rc = 2 ↔ admits op v.regs.phase = false := by
  have hoperand {k : Cause} (hk : k ∈ operandFaults op) : causeRc k ≠ 2 := by
    revert hk
    cases op <;> cases k <;> decide
  rcases runOperation_cases A op a0 a1 a2 v with ⟨hp, he⟩ | ⟨hp, k, hk, he⟩ | ⟨hp, he⟩
  · exact iff_of_true he.rc hp
  · exact iff_of_false (by rw [he.rc]; exact hoperand hk) (by simp [hp])
  · exact iff_of_false (by rw [he.rc]; decide) (by simp [hp])

/-- A CYCLE whose first block is not readable stops there (`40_sequencer.md` R122). -/
theorem absorbBlocks_error_first {m : Memory} {ptr k n i : Nat} {h : α}
    (hu : memRead m (ptr + k * A.bs) A.bs = none) (herr : absorbBlocks A m ptr k n h = .error i) : i = k := by
  cases n with
  | zero => cases herr
  | succ n =>
    rw [absorbBlocks_succ_none A hu] at herr
    exact (Except.error.inj herr).symm

/-- A CYCLE that faults keeps the HashState unless a block after the first cannot be read (R273(d), assumption 3). -/
theorem cycleCommand_h_of_fault (hrc : (cycleCommand A a0 a1 v).rc ≠ 0)
    (h : (cycleCommand A a0 a1 v).rc ≠ 5 ∨ SomeUnreadable v.mem a0.toNat A.bs) :
    (cycleCommand A a0 a1 v).regs.h = v.regs.h := by
  rcases cycleCommand_cases A a0 a1 v with ⟨-, he⟩ | ⟨-, -, he⟩ | ⟨k, -, -, herr, he⟩ | ⟨x, -, -, -, he⟩ <;>
    rw [he] at hrc h ⊢
  · rfl
  · rfl
  · have hu := memRead_eq_none_iff.mpr (h.resolve_left (not_not.mpr rfl))
    obtain rfl := absorbBlocks_error_first A (k := 0) (by simpa using hu) herr
    rfl
  · exact absurd rfl hrc

/-- A fault keeps the HashState, the `ReadFault` of a CYCLE after block 0 apart (R273(d), assumption 3). -/
theorem runOperation_h_of_fault (hrc : (runOperation A op a0 a1 a2 v).rc ≠ 0)
    (h : op ≠ .cycle ∨ (runOperation A op a0 a1 a2 v).rc ≠ 5 ∨ SomeUnreadable v.mem a0.toNat A.bs) :
    (runOperation A op a0 a1 a2 v).regs.h = v.regs.h := by
  cases op with
  | init =>
    rcases initCommand_cases A v with ⟨-, he⟩ | ⟨-, he⟩ <;> rw [runOperation, he] at hrc ⊢
    · exact absurd rfl hrc
    · rfl
  | cycle => exact cycleCommand_h_of_fault A hrc (h.resolve_left (not_not.mpr rfl))
  | finish =>
    rcases finishCommand_cases A a0 a1 a2 v with
      ⟨-, he⟩ | ⟨-, -, he⟩ | ⟨-, -, -, he⟩ | ⟨-, -, -, -, he⟩ | ⟨t, -, -, -, -, he⟩ <;>
      rw [runOperation, he] at hrc ⊢
    · rfl
    · rfl
    · rfl
    · rfl
    · exact absurd rfl hrc
  | digest => exact digestCommand_h A v
  | erase => exact absurd rfl hrc

/-- A FINISH that reached its operand tests has wiped `EPI` (`45_eraser.md` R254). -/
theorem runOperation_epi_wiped (h : op = .finish ∧ (runOperation A op a0 a1 a2 v).rc ≠ 2) :
    (runOperation A op a0 a1 a2 v).epi = List.replicate 256 0 := by
  obtain ⟨rfl, hrc⟩ := h
  rw [Ne, runOperation_rc_eq_two_iff, Bool.not_eq_false] at hrc
  exact finishCommand_epi_of_admits A a0 a1 a2 hrc

/-- Every other command leaves `EPI` alone (`10_state.md` R31). -/
theorem runOperation_epi_kept (h : op ≠ .finish ∨ (runOperation A op a0 a1 a2 v).rc = 2) :
    (runOperation A op a0 a1 a2 v).epi = v.epi := by
  rcases h with hop | hrc
  · exact runOperation_epi_of_ne_finish A a0 a1 a2 v hop
  · rw [runOperation_of_not_admits A a0 a1 a2 ((runOperation_rc_eq_two_iff A).mp hrc), raise_epi]

end FaultEntry

/-- Settles O44: a response other than OK is that of a raised fault. -/
theorem faultEntry : Obligations.FaultEntry := by
  refine ⟨fun c op a0 a1 a2 s t h hrc => ?_, fun s c rest hin ⟨e, he⟩ => undecodable_step hin he⟩
  rw [exec_instrOf] at h
  obtain rfl := Host.Outcome.next.inj h
  rw [State.putOf_rc] at hrc
  rcases runOperation_fault_or_ok (algOf c) op a0 a1 a2 (s.viewOf c) with ⟨k, -, he⟩ | ⟨-, he⟩
  · simp only [sameHash_iff, State.phaseOf_putOf_same, State.fcodeOf_putOf_same, State.putOf_rc, State.putOf_rdata,
      State.putOf_epi, State.regsOf_putOf_same, ← algOf_bs]
    refine ⟨he.phase, fun hp => ?_, fun hp => ?_, he.rdata, runOperation_h_of_fault _ hrc,
      runOperation_epi_wiped _, runOperation_epi_kept _, fun d hd => sameCore_iff.mpr (by simp [hd]),
      sameHostSide_putOf s c _⟩
    · rw [he.fcode, he.rc, fcodeAfter_of_ne_faulted (by simpa using hp), causeRc_toNat]
    · rw [he.fcode, State.viewOf_regs, State.regsOf_phase, State.regsOf_fcode, hp, fcodeAfter_faulted]
  · exact absurd he.rc hrc

/-! ### The ways out of FAULTED -/

@[simp] theorem State.phaseOf_setPort (s : State) (w : Command) (c : CoreId) : (s.setPort w).phaseOf c = s.phaseOf c := by
  cases c <;> rfl

@[simp] theorem State.phaseOf_setMem (s : State) (m : Memory) (c : CoreId) : (s.setMem m).phaseOf c = s.phaseOf c := by
  cases c <;> rfl

@[simp] theorem State.phaseOf_setInbox (s : State) (l : List HostInput) (c : CoreId) :
    (s.setInbox l).phaseOf c = s.phaseOf c := by
  cases c <;> rfl

@[simp] theorem State.phaseOf_enterRace (s : State) (ws : List (Word64 × Byte)) (c : CoreId) :
    (s.enterRace ws).phaseOf c = s.phaseOf c := by
  cases c <;> rfl

@[simp] theorem State.phaseOf_illegalCommand (s : State) (c : CoreId) : s.illegalCommand.phaseOf c = s.phaseOf c := by
  cases c <;> rfl

@[simp] theorem clearedCore_setMem {c : CoreId} {s : State} {m : Memory} :
    ClearedCore c (s.setMem m) ↔ ClearedCore c s := by
  cases c <;> exact Iff.rfl

/-- ERASE clears its core (`45_eraser.md` R252). -/
theorem clearedCore_of_erase {i : Instr} {s t : State} (h : exec i s = .next t) (hop : i.operation = .erase) :
    ClearedCore i.coreId t := by
  rw [← instrOf_encode i, hop, exec_instrOf] at h
  obtain rfl := Host.Outcome.next.inj h
  exact clearedCore_iff.mpr (State.regsOf_putOf_same ..)

/-- A command that takes a core out of FAULTED is ERASE of that core: every other one is refused. -/
theorem erase_of_exec_leaves_faulted {i : Instr} {s t : State} {c : CoreId} (h : exec i s = .next t)
    (hs : s.phaseOf c = .faulted) (ht : t.phaseOf c ≠ .faulted) : i.operation = .erase ∧ i.coreId = c := by
  have hcore : i.coreId = c := by
    by_contra hne
    obtain rfl := exec_next_iff.mp h
    exact ht (by rw [State.phaseOf_putOf_other _ _ (Ne.symm hne), hs])
  subst hcore
  refine ⟨?_, rfl⟩
  by_contra hop
  rw [exec_next_unique h (exec_of_not_admits (by rw [hs, admits_faulted hop])), State.phaseOf_putOf_same] at ht
  exact ht (raise_phase _ _)

/-- The accepted command that takes a core out of FAULTED decodes to ERASE of that core. -/
theorem acceptCommand_leaves_faulted {s t : State} {c : CoreId} (h : acceptCommand s = .next t)
    (hs : s.phaseOf c = .faulted) (ht : t.phaseOf c ≠ .faulted) :
    ClearedCore c t ∧ ∃ i, decode s.port = .ok i ∧ i.operation = .erase ∧ i.coreId = c := by
  cases hd : decode s.port with
  | error e =>
    rw [acceptCommand_error hd] at h
    obtain rfl := Host.Outcome.next.inj h
    exact absurd hs (by simpa using ht)
  | ok i =>
    rw [acceptCommand_ok hd] at h
    obtain ⟨hop, rfl⟩ := erase_of_exec_leaves_faulted h hs ht
    exact ⟨clearedCore_of_erase h hop, i, rfl, hop, rfl⟩

/-- Settles O45: the inputs that write the phase of a core are commands, raced or not, and the two resets. -/
theorem onlyEraseOrResetLeavesFaulted : Obligations.OnlyEraseOrResetLeavesFaulted := by
  intro s t c h hs ht
  cases hin : s.inbox with
  | nil =>
    rw [step_idle hin] at h
    exact absurd (Host.Outcome.next.inj h ▸ hs) ht
  | cons x rest =>
    rw [step_input hin] at h
    cases x with
    | present w =>
      obtain ⟨hclear, i, hd, hop, hc⟩ := acceptCommand_leaves_faulted h (by simpa using hs) ht
      exact ⟨hclear, rest, .inr (.inr ⟨w, i, hd, hop, hc, .inl rfl⟩)⟩
    | presentRaced w ws =>
      obtain ⟨u, hu, rfl⟩ := leaveRace_next h
      obtain ⟨hclear, i, hd, hop, hc⟩ := acceptCommand_leaves_faulted hu (by simpa using hs) (by simpa using ht)
      exact ⟨clearedCore_setMem.mpr hclear, rest, .inr (.inr ⟨w, i, hd, hop, hc, .inr ⟨ws, rfl⟩⟩)⟩
    | presentChanged w w' => cases h
    | write a b =>
      obtain rfl := Host.Outcome.next.inj h
      exact absurd hs (by simpa using ht)
    | setReadable ranges =>
      obtain rfl := Host.Outcome.next.inj h
      exact absurd hs (by simpa using ht)
    | reset =>
      obtain rfl := Host.Outcome.next.inj h
      exact ⟨clearedCore_resetBlock _ c, rest, .inl rfl⟩
    | presentReset w =>
      obtain rfl := Host.Outcome.next.inj h
      exact ⟨clearedCore_resetBlock _ c, rest, .inr (.inl ⟨w, rfl⟩)⟩

end Sys2Proof.Machine
end

section
/-! PROOFS. The statements of `70_reset_and_hazards.md`: a step stops only where the host changes the port (R310, R320), and
a command raced by host writes (R311). -/

namespace Sys2Proof.Machine

/-! ### Every step answers -/

/-- Every accepted command produces its response (R320). -/
theorem acceptCommand_next (s : State) : ∃ t, acceptCommand s = .next t := by
  cases hd : decode s.port with
  | error e => exact ⟨_, acceptCommand_error hd⟩
  | ok i => exact ⟨_, (acceptCommand_ok hd).trans (exec_eq_next i s)⟩

/-- A command raced by host writes answers as the command does on the memory it sees (R311). -/
theorem landInput_presentRaced_of_next {c : Command} {ws : List (Word64 × Byte)} {s t : State}
    (h : acceptCommand ((s.enterRace ws).setPort c) = .next t) :
    landInput (.presentRaced c ws) s = .next (t.setMem (s.mem.writeAll ws)) := by
  rw [landInput_presentRaced, h]
  rfl

/-- Settles O14: each input but the changed port leads to a next state when it lands. -/
theorem stepStopsOnlyOnChangedPort : Obligations.StepStopsOnlyOnChangedPort := by
  intro s
  cases hin : s.inbox with
  | nil => exact .inl ⟨s, step_idle hin⟩
  | cons x rest =>
    rw [step_input hin]
    cases x with
    | present c => exact .inl (acceptCommand_next _)
    | presentRaced c ws =>
      obtain ⟨t, ht⟩ := acceptCommand_next (((s.setInbox rest).enterRace ws).setPort c)
      exact .inl ⟨_, landInput_presentRaced_of_next ht⟩
    | presentChanged c d => exact .inr ⟨c, d, rest, rfl, rfl⟩
    | write a b => exact .inl ⟨_, landInput_write a b _⟩
    | setReadable ranges => exact .inl ⟨_, landInput_setReadable ranges _⟩
    | reset => exact .inl ⟨_, rfl⟩
    | presentReset c => exact .inl ⟨_, landInput_presentReset c _⟩

/-! ### Host writes while a command runs -/

/-- A byte after a write is the byte written there, or the old one. -/
theorem Memory.byte_write_cases {m : Memory} (h : m.wf = true) (a x : Nat) (b : Byte) :
    (m.write a b).byte x = m.byte x ∨ (a = x ∧ (m.write a b).byte x = b) := by
  by_cases hx : x = a
  · subst hx
    exact .inr ⟨rfl, Memory.byte_write_same x b h⟩
  · exact .inl (Memory.byte_write_other m b hx)

/-- Every byte the running command may see is the old one or one the host wrote there (R311). -/
theorem byte_raceView_old_or_written {m : Memory} (h : m.wf = true) (n : Nat) (ws : List (Word64 × Byte)) (a : Nat) :
    (raceView m n ws).byte a = m.byte a ∨ ∃ w ∈ ws, w.1.toNat = a ∧ (raceView m n ws).byte a = w.2 := by
  induction ws generalizing m n with
  | nil => exact .inl rfl
  | cons w ws ih =>
    have later {b : Byte} : (∃ v ∈ ws, v.1.toNat = a ∧ b = v.2) → ∃ v ∈ w :: ws, v.1.toNat = a ∧ b = v.2 :=
      fun ⟨v, hv, hva⟩ => ⟨v, List.mem_cons_of_mem w hv, hva⟩
    rw [raceView]
    split
    · rcases ih (Memory.write_wf w.2 h w.1.isLt) (n + 1) with hold | hnew
      · rw [hold]
        exact (Memory.byte_write_cases h _ a w.2).imp_right fun hw => ⟨w, List.mem_cons_self, hw⟩
      · exact .inr (later hnew)
    · exact (ih h (n + 1)).imp_right later

theorem Memory.writeAll_append (m : Memory) (us vs : List (Word64 × Byte)) :
    m.writeAll (us ++ vs) = (m.writeAll us).writeAll vs := by
  induction us generalizing m with
  | nil => rfl
  | cons u us ih => exact ih (m.write u.1.toNat u.2)

/-- A byte no write names is the old one. -/
theorem Memory.byte_writeAll_other (m : Memory) {ws : List (Word64 × Byte)} {a : Nat}
    (h : ∀ w ∈ ws, w.1.toNat ≠ a) : (m.writeAll ws).byte a = m.byte a := by
  induction ws generalizing m with
  | nil => rfl
  | cons w ws ih =>
    obtain ⟨hw, hws⟩ := List.forall_mem_cons.mp h
    exact (ih _ hws).trans (Memory.byte_write_other m w.2 hw.symm)

/-- A byte some write names is the last one written there. -/
theorem Memory.byte_writeAll_last {m : Memory} (h : m.wf = true) (us : List (Word64 × Byte)) (w : Word64 × Byte)
    {vs : List (Word64 × Byte)} (hvs : ∀ v ∈ vs, v.1 ≠ w.1) :
    (m.writeAll (us ++ w :: vs)).byte w.1.toNat = w.2 := by
  rw [Memory.writeAll_append, Memory.writeAll,
    Memory.byte_writeAll_other _ fun v hv => mt BitVec.eq_of_toNat_eq (hvs v hv),
    Memory.byte_write_same _ _ (Memory.writeAll_wf us h)]

/-- Settles O17: the command sees `raceView`, and all the writes are made when it has answered. -/
theorem racedCommandSeesOldOrNewBytes : Obligations.RacedCommandSeesOldOrNewBytes := by
  intro s c ws rest hin hwf
  obtain ⟨t, ht⟩ := acceptCommand_next (((s.setInbox rest).enterRace ws).setPort c)
  refine ⟨raceView s.mem s.draws ws, t, readable_raceView s.mem s.draws ws,
    byte_raceView_old_or_written hwf s.draws ws, ht, (step_input hin).trans (landInput_presentRaced_of_next ht),
    Memory.readable_writeAll s.mem ws, fun a => Memory.byte_writeAll_other s.mem, ?_⟩
  rintro us w vs rfl hvs
  exact Memory.byte_writeAll_last hwf us w hvs

end Sys2Proof.Machine
end
